-- ==== Sys2Proof/Word.lean ====
section
/-! DEFINITION. The two control words of the hardware: the 8-bit command word CMD8 and the 4-bit leaf-operation word LOP4 (30_encoding.md R60, R65). -/

namespace Sys2Proof

/-- One control word, with the port it belongs to: the engine's command port (R60) or a leaf's control input (R65).
The two formats are two separate inputs of the hardware; a word's bits alone do not say which one it is for. -/
inductive Word where
  | cmd8 (w : BitVec 8)
  | lop4 (w : BitVec 4)
  deriving DecidableEq, Repr

/-- The word's bits as a natural, bit 0 the least significant (00_scope.md R10). -/
def Word.toNat : Word → Nat
  | .cmd8 w => w.toNat
  | .lop4 w => w.toNat

/-- How many bits the word's format has (R60, R65). -/
def Word.width : Word → Nat
  | .cmd8 _ => 8
  | .lop4 _ => 4

end Sys2Proof
end

