-- ==== Sys2Proof/Syntax.lean ====
section
/-! DEFINITION. The instructions: the three engine commands and the five leaf operations (00_scope.md R3; opcode_table.json). -/

namespace Sys2Proof

/-- One constructor per row of spec/opcode_table.json.
`init` carries KLEN, the declared key length in bytes (30_encoding.md R61).
`feed` carries its data bit and `step` the `force` argument (R65). -/
inductive Instr where
  | nop
  | init (klen : Nat)
  | gen
  | hold
  | clear
  | feed (d : Bool)
  | step (f : Bool)
  | shift
  deriving DecidableEq, Repr

end Sys2Proof
end

