-- ==== Sys2Proof/WellFormed.lean ====
section
/-! DEFINITION. Which instruction terms have an encoding. -/

namespace Sys2Proof

/-- KLEN is a 4-bit field, 0..15; any other operand is refused by the assembler (30_encoding.md R61, R69).
Every other operand is one bit and always fits. -/
def Instr.wf : Instr → Bool
  | .nop => true
  | .init klen => decide (klen ≤ 15)
  | .gen => true
  | .hold => true
  | .clear => true
  | .feed _ => true
  | .step _ => true
  | .shift => true

end Sys2Proof
end

