-- ==== Sys2Proof/Decode.lean ====
section
/-! DEFINITION. The decoders of both control words, the encoder, and the reading of an opcode-table word (30_encoding.md R60 to R68). -/

namespace Sys2Proof

/-- Why a word has no instruction: it is no command (R64; the engine reports ILLEGAL_COMMAND), or it is a reserved
leaf-operation word (40_lfsr.md R89). -/
inductive DecodeError where
  | illegalCommand
  | reservedLop
  deriving DecidableEq, Repr

/-- CMD8 field OP, bits 2..0 (R61). -/
def cmdOp (w : BitVec 8) : BitVec 3 := w.extractLsb' 0 3

/-- CMD8 field KLEN, bits 6..3 (R61). -/
def cmdKlen (w : BitVec 8) : BitVec 4 := w.extractLsb' 3 4

/-- CMD8 field RSV, bit 7 (R61). -/
def cmdRsv (w : BitVec 8) : Bool := w.getLsbD 7

/-- R63, its checks in its order: the reserved OP codes, then bit 7, then the command itself. Total on all 256 words. -/
def decodeCmd8 (w : BitVec 8) : Except DecodeError Instr :=
  if 3 ≤ (cmdOp w).toNat then .error .illegalCommand
  else if cmdRsv w then .error .illegalCommand
  else if cmdOp w = 0 then
    if cmdKlen w ≠ 0 then .error .illegalCommand else .ok .nop
  else if cmdOp w = 2 then
    if cmdKlen w ≠ 0 then .error .illegalCommand else .ok .gen
  else .ok (.init (cmdKlen w).toNat)

/-- LOP4 field LOP, bits 2..0 (R65). -/
def lopOp (w : BitVec 4) : BitVec 3 := w.extractLsb' 0 3

/-- LOP4 field D, bit 3: FEED's data bit, STEP's `force` (R65). -/
def lopD (w : BitVec 4) : Bool := w.getLsbD 3

/-- The opcode map R66; the nine remaining words are reserved (R89). -/
def decodeLop4 (w : BitVec 4) : Except DecodeError Instr :=
  if lopOp w = 2 then .ok (.feed (lopD w))
  else if lopOp w = 3 then .ok (.step (lopD w))
  else if lopD w then .error .reservedLop
  else if lopOp w = 0 then .ok .hold
  else if lopOp w = 1 then .ok .clear
  else if lopOp w = 4 then .ok .shift
  else .error .reservedLop

/-- The decoder of the hardware: each format is read at its own port. -/
def decode : Word → Except DecodeError Instr
  | .cmd8 w => decodeCmd8 w
  | .lop4 w => decodeLop4 w

/-- The word of an instruction, from the bit patterns of R62 and R66: fields placed by shift and OR, as R69 and R71 write
them. An INIT whose KLEN does not fit its field is not well formed; the word of one is meaningless. -/
def encode : Instr → Word
  | .nop => .cmd8 0x00#8
  | .init klen => .cmd8 ((BitVec.ofNat 8 klen <<< 3) ||| 0x01#8)
  | .gen => .cmd8 0x02#8
  | .hold => .lop4 0x0#4
  | .clear => .lop4 0x1#4
  | .feed d => .lop4 ((BitVec.ofNat 4 d.toNat <<< 3) ||| 0x2#4)
  | .step f => .lop4 ((BitVec.ofNat 4 f.toNat <<< 3) ||| 0x3#4)
  | .shift => .lop4 0x4#4

/-- Which port an opcode-table word is for. Fewer than 8 bits: a LOP4 row. With 8 bits the number is a CMD8 word when it
decodes as a command; a LOP4 row whose 4 bits were counted as one whole byte is read as LOP4 where it is no command.
DESIGN CHOICE (log 8): the words 0, 1, 2 of a LOP4 row given as 8 bits cannot be told from NOP, INIT 0 and GEN. -/
def tableWord (nbits w : Nat) : Word :=
  let asCmd := BitVec.ofNat 8 w
  let asLop := BitVec.ofNat 4 w
  if nbits < 8 then .lop4 asLop
  else match decodeCmd8 asCmd, decodeLop4 asLop with
    | .ok _, _ => .cmd8 asCmd
    | .error _, .ok _ => if w < 16 then .lop4 asLop else .cmd8 asCmd
    | .error _, .error _ => .cmd8 asCmd

/-- The instruction the decoder reads from an opcode-table word (host interface). The reserved command words stay illegal on
the command port itself: that is `decodeCmd8`, which the machine's step uses. -/
def decodeTableWord (nbits w : Nat) : Option Instr :=
  match decode (tableWord nbits w) with
  | .ok i => some i
  | .error _ => none

end Sys2Proof
end

