-- ==== Sys2Proof/Config.lean ====
section
/-! DEFINITION. The construction parameters of one engine (00_scope.md R7, R8; 10_state.md R23). -/

namespace Sys2Proof

/-- Width of R1, R2, R3 in bits (R7). -/
abbrev W1 : Nat := 19
abbrev W2 : Nat := 22
abbrev W3 : Nat := 23

/-- KEY_BYTES, KEY_BITS, FRAME_BITS and WARMUP (R7). -/
abbrev keyBytes : Nat := 8
abbrev keyBits : Nat := 64
abbrev frameBits : Nat := 22
abbrev warmupCycles : Nat := 100

/-- What a register whose clock bit is 0 does when the majority count is below 2 (R7, 41_arbiter.md R103). -/
inductive MinorityMode where
  | plain
  | full
  deriving DecidableEq, Repr

/-- The mode of an engine for which none is named: R7's default, PLAIN (92_eei_decisions.md D4). -/
def MinorityMode.byDefault : MinorityMode := .plain

/-- One leaf's constants: tap mask and clock-bit position. The types are R8's legality: a mask below 2^W, a position below W. -/
structure LeafConfig (w : Nat) where
  tap : BitVec w
  clk : Fin w
  deriving DecidableEq, Repr

/-- A legal configuration (R7, R8). The latencies are at least one cycle and no rule reads them (70_reset_and_hazards.md R178);
FRAME_W is at least 22 in a configuration built by `buildConfig`. -/
structure Config where
  leaf1 : LeafConfig W1
  leaf2 : LeafConfig W2
  leaf3 : LeafConfig W3
  minority : MinorityMode
  frameW : Nat
  initLatency : ℕ+
  genLatency : ℕ+
  deriving DecidableEq, Repr

/-- The parameters R7 leaves OPEN (91_not_in_source.md N5): constants with no body, so no claim can see a value. -/
opaque Config.chipTap1 : BitVec W1
opaque Config.chipTap2 : BitVec W2
opaque Config.chipTap3 : BitVec W3
opaque Config.chipClk1 : Fin W1
opaque Config.chipClk2 : Fin W2
opaque Config.chipClk3 : Fin W3
opaque Config.chipInitLatency : ℕ+
opaque Config.chipGenLatency : ℕ+

/-- The hardware built with a given minority mode: FRAME_W = 32 as R7 says, everything R7 leaves OPEN left open (log 1). -/
def Config.chipIn (m : MinorityMode) : Config :=
  { leaf1 := { tap := Config.chipTap1, clk := Config.chipClk1 }
    leaf2 := { tap := Config.chipTap2, clk := Config.chipClk2 }
    leaf3 := { tap := Config.chipTap3, clk := Config.chipClk3 }
    minority := m
    frameW := 32
    initLatency := Config.chipInitLatency
    genLatency := Config.chipGenLatency }

/-- The hardware with no minority mode named: R7's default. -/
def Config.chip : Config := Config.chipIn MinorityMode.byDefault

/-- The reference configuration CFG-A with a chosen minority mode (R9): for test vectors only, never normative.
DESIGN CHOICE (log 20): the latencies 187 and 1, which R9 does not list and R7 leaves OPEN; no definition reads them. -/
def Config.cfgA (m : MinorityMode) : Config :=
  { leaf1 := { tap := 0x072000#19, clk := 8 }
    leaf2 := { tap := 0x300000#22, clk := 10 }
    leaf3 := { tap := 0x700080#23, clk := 10 }
    minority := m
    frameW := 32
    initLatency := 187
    genLatency := 1 }

end Sys2Proof
end

