-- ==== Sys2Proof/Machine/State.lean ====
section
/-! DEFINITION. The machine's state as plain data, its stop reasons, and the state after reset (10_state.md R20 to R36). -/

namespace Sys2Proof.Machine

/-- Which of the three leaves (10_state.md R20). -/
inductive LeafId where
  | r1
  | r2
  | r3
  deriving DecidableEq, Repr

/-- One operation on a leaf (30_encoding.md R66). -/
inductive Lop where
  | hold
  | clear
  | feed (d : Bool)
  | step (f : Bool)
  | shift
  deriving DecidableEq, Repr

/-- The operations driven into the three leaves in one leaf cycle (40_lfsr.md R80, 30_encoding.md R68). -/
structure Lops where
  l1 : Lop
  l2 : Lop
  l3 : Lop
  deriving DecidableEq, Repr

/-- The three shift registers R1, R2, R3 (10_state.md R20). -/
structure Regs where
  r1 : BitVec W1
  r2 : BitVec W2
  r3 : BitVec W3
  deriving DecidableEq, Repr

/-- What the engine is executing (10_state.md R32): nothing; a command just accepted, with its sampled word, KEY and FRAME;
INIT's load phase, at load index 0..85; INIT's warm-up, at count 0..99. BUSY is 1 exactly when this is not `idle` (R29). -/
inductive Sequencer where
  | idle
  | accepted (cmd : BitVec 8) (key : BitVec 64) (frame : BitVec 32)
  | load (i : Fin 86) (key : BitVec 64) (frame : BitVec 32)
  | warmup (k : Fin 100)
  deriving DecidableEq, Repr

/-- One action of the outside world. Engine level (00_scope.md R17 level 1): a command word on the command port, new values on
the KEY and FRAME pins, reset. Leaf level (R17 level 2, a test harness; 10_state.md R31): a LOP4 word on one leaf's control
input, or one majority cycle across the three leaves. -/
inductive Input where
  | command (w : BitVec 8)
  | drivePorts (key : BitVec 64) (frame : BitVec 32)
  | reset
  | leaf (id : LeafId) (w : BitVec 4)
  | majCycle
  deriving DecidableEq, Repr

/-- The state. `regs`, `ready`, `ksValid`, `err`, `ks` are the engine-level tuple of R36; `seq` is the hardware-only sequencer
of R32 and R35. `cfg` is the engine's construction parameters, which nothing changes (R23). `keyPort` and `framePort` are the
levels on the input pins (20_memory.md R41, R42). `leafSel` and `inputs` are the model's own: the leaf a leaf-level word goes
to, and the host's remaining actions, oldest first (R34; logs 3 and 5). -/
structure State where
  regs : Regs
  ready : Bool
  ksValid : Bool
  err : BitVec 2
  ks : Bool
  seq : Sequencer
  cfg : Config
  keyPort : BitVec 64
  framePort : BitVec 32
  leafSel : LeafId
  inputs : List Input
  deriving DecidableEq, Repr

/-- Why the machine stops. -/
inductive Fault where
  /-- A reserved LOP4 word was driven into a leaf (40_lfsr.md R89), raised by the step for `Input.leaf`.
  Safe: the hardware's response is unspecified (93_implementation_defined.md I2), and the engine never drives one. -/
  | reservedLop
  deriving DecidableEq, Repr

/-- Why an instruction has no meaning. -/
inductive Refusal where
  /-- Raised by an arm of `exec` for an instruction that has no meaning yet; no arm does. Safe. -/
  | notModelled (mnemonic : String)
  deriving DecidableEq, Repr

/-- The reset values of R35 for an engine built with configuration `c`. The pins and `leafSel` are DESIGN CHOICEs (logs 4, 5). -/
def State.resetWith (c : Config) : State :=
  { regs := { r1 := 0, r2 := 0, r3 := 0 }
    ready := false
    ksValid := false
    err := 0
    ks := false
    seq := .idle
    cfg := c
    keyPort := 0
    framePort := 0
    leafSel := .r1
    inputs := [] }

/-- The machine right after reset (10_state.md R35, 70_reset_and_hazards.md R170), its OPEN parameters left open and MINORITY_MODE
at R7's default. An engine built in the other mode resets to `State.resetWith (Config.chipIn .full)`. -/
def State.reset : State := State.resetWith Config.chip

end Sys2Proof.Machine
end

