-- ==== Sys2Proof/Machine/Ops.lean ====
section
/-! DEFINITION. The shared operations: loops, state updates, raising an error, the five operations of a leaf and their application (00_scope.md R13, R14; 40_lfsr.md R80 to R88). -/

namespace Sys2Proof.Machine

/-- `for k in 0 .. n-1: body` (R14): the iterations in rising order, each seeing what the previous one left. -/
def loop {α : Type} (body : Nat → α → α) : Nat → α → α
  | 0, a => a
  | n + 1, a => body n (loop body n a)

/-! State updates, one per field group. -/

def State.setRegs (r : Regs) (s : State) : State := { s with regs := r }
def State.setErr (e : BitVec 2) (s : State) : State := { s with err := e }
def State.setSeq (q : Sequencer) (s : State) : State := { s with seq := q }
def State.setPorts (key : BitVec 64) (frame : BitVec 32) (s : State) : State :=
  { s with keyPort := key, framePort := frame }
def State.setLeafSel (id : LeafId) (s : State) : State := { s with leafSel := id }
def State.setInputs (l : List Input) (s : State) : State := { s with inputs := l }

/-- INIT's completion (42_engine.md R128): READY 1, KS_VALID 0, ERR 00. -/
def State.markInitDone (s : State) : State := { s with ready := true, ksValid := false, err := 0#2 }

/-- GEN's results (42_engine.md R130): KS, KS_VALID 1, ERR 00. -/
def State.latchKs (z : Bool) (s : State) : State := { s with ks := z, ksValid := true, err := 0#2 }

/-! Error codes of STATUS.ERR (60_exceptions.md R150). -/

abbrev errOk : BitVec 2 := 0b00#2
abbrev errInvalidArgument : BitVec 2 := 0b01#2
abbrev errIllegalCommand : BitVec 2 := 0b10#2

/-- `raise Error(code)` (00_scope.md R13): the one way a command fails. It writes ERR and nothing else, and the command ends.
There is no trap, vector, saved state or return (60_exceptions.md R156). -/
def raiseError (code : BitVec 2) (s : State) : State := s.setErr code

/-- The state a reset leaves (70_reset_and_hazards.md R170, R171): every value of 10_state.md R35, whatever was executing.
The configuration, the pins and the host's remaining actions are not the engine's state and stay (log 13). -/
def resetEngine (s : State) : State :=
  { s with
    regs := { r1 := 0, r2 := 0, r3 := 0 }
    ready := false
    ksValid := false
    err := 0#2
    ks := false
    seq := .idle }

/-! The leaf: one parameterised register of width `w` (40_lfsr.md). -/

/-- HOLD (R84). -/
def leafHold {w : Nat} (v : BitVec w) : BitVec w := v

/-- CLEAR (R85). -/
def leafClear {w : Nat} (_ : BitVec w) : BitVec w := 0#w

/-- FEED d (R86): XOR into bit 0, shift left by one, the top bit discarded, so that no key bit survives INIT's 86 FEEDs (00_scope.md R15
"Warm-up cycles"; 42_engine.md R129). -/
def leafFeed {w : Nat} (d : Bool) (v : BitVec w) : BitVec w :=
  (v ^^^ (BitVec.ofBool d).setWidth w) <<< 1

/-- SHIFT (R88): a plain right shift. -/
def leafShift {w : Nat} (v : BitVec w) : BitVec w := v >>> 1

/-- STEP f (R87; 00_scope.md R15 "LFSR"): feedback when bit 0 is set, else a plain shift. `f` is not read. -/
def leafStep {w : Nat} (tap : BitVec w) (_f : Bool) (v : BitVec w) : BitVec w :=
  if v.getLsbD 0 then ((v ^^^ tap) >>> 1) ||| (1#w <<< (w - 1)) else v >>> 1

/-- The leaf's `clk_bit` output (R82). -/
def clkBit {w : Nat} (p : LeafConfig w) (v : BitVec w) : Bool := v.getLsbD p.clk

/-- The leaf's `out_bit` output, normalised to 0/1 (R83). -/
def outBit {w : Nat} (v : BitVec w) : Bool := v.getLsbD (w - 1)

/-- A leaf applies the one operation selected for this leaf cycle (R80). -/
def leafApply {w : Nat} (p : LeafConfig w) (op : Lop) (v : BitVec w) : BitVec w :=
  match op with
  | .hold => leafHold v
  | .clear => leafClear v
  | .feed d => leafFeed d v
  | .step f => leafStep p.tap f v
  | .shift => leafShift v

/-- The LOP4 word of an operation, as driven on a leaf's control input (30_encoding.md R66). -/
def Lop.word : Lop → BitVec 4
  | .hold => 0x0#4
  | .clear => 0x1#4
  | .feed d => if d then 0xA#4 else 0x2#4
  | .step f => if f then 0xB#4 else 0x3#4
  | .shift => 0x4#4

/-- The same operation into every leaf (R68: the sequencer drives all three together). -/
def Lops.all (op : Lop) : Lops := { l1 := op, l2 := op, l3 := op }

/-- One leaf cycle: each leaf computes its new value from its own old value (R80). -/
def applyLops (c : Config) (l : Lops) (r : Regs) : Regs :=
  { r1 := leafApply c.leaf1 l.l1 r.r1
    r2 := leafApply c.leaf2 l.l2 r.r2
    r3 := leafApply c.leaf3 l.l3 r.r3 }

/-- One operation on one leaf while the other two hold (00_scope.md R17 level 2; 60_exceptions.md R163). -/
def Lops.only (id : LeafId) (op : Lop) : Lops :=
  match id with
  | .r1 => { l1 := op, l2 := .hold, l3 := .hold }
  | .r2 => { l1 := .hold, l2 := op, l3 := .hold }
  | .r3 => { l1 := .hold, l2 := .hold, l3 := op }

/-- One leaf cycle on the whole state: only the registers change (41_arbiter.md R104). -/
def State.leafCycle (l : Lops) (s : State) : State := s.setRegs (applyLops s.cfg l s.regs)

/-- A leaf-level step: the operation goes to the selected leaf. -/
def State.applyToLeaf (op : Lop) (s : State) : State := s.leafCycle (Lops.only s.leafSel op)

/-! Reading a register as a natural, for the naturals of the spec's pseudocode (00_scope.md R10, R11). -/

/-- The width of a leaf (00_scope.md R7). -/
def LeafId.width : LeafId → Nat
  | .r1 => W1
  | .r2 => W2
  | .r3 => W3

/-- R[i] as an unsigned natural (10_state.md R21). -/
def Regs.val (r : Regs) : LeafId → Nat
  | .r1 => r.r1.toNat
  | .r2 => r.r2.toNat
  | .r3 => r.r3.toNat

/-- TAPi as an unsigned natural. -/
def tapVal (c : Config) : LeafId → Nat
  | .r1 => c.leaf1.tap.toNat
  | .r2 => c.leaf2.tap.toNat
  | .r3 => c.leaf3.tap.toNat

/-- CLKi. -/
def clkPos (c : Config) : LeafId → Nat
  | .r1 => c.leaf1.clk.val
  | .r2 => c.leaf2.clk.val
  | .r3 => c.leaf3.clk.val

/-- The `clk_bit` output of leaf Ri (40_lfsr.md R82). -/
def State.clkBitOf (s : State) : LeafId → Bool
  | .r1 => clkBit s.cfg.leaf1 s.regs.r1
  | .r2 => clkBit s.cfg.leaf2 s.regs.r2
  | .r3 => clkBit s.cfg.leaf3 s.regs.r3

/-- The `out_bit` output of leaf Ri (40_lfsr.md R83). -/
def Regs.outBitOf (r : Regs) : LeafId → Bool
  | .r1 => outBit r.r1
  | .r2 => outBit r.r2
  | .r3 => outBit r.r3

end Sys2Proof.Machine
end

