-- ==== Sys2Proof/Machine/Arbiter.lean ====
section
/-! DEFINITION. The majority-vote arbiter and the majority cycle (41_arbiter.md R100 to R105). -/

namespace Sys2Proof.Machine

/-- The majority count `m = c1 + c2 + c3` (R101). -/
def majorityCount (c1 c2 c3 : Bool) : Nat := c1.toNat + c2.toNat + c3.toNat

/-- The majority predicate: `m >= 2` exactly (R102). -/
def majority (c1 c2 c3 : Bool) : Bool := decide (2 ≤ majorityCount c1 c2 c3)

/-- What a register with clock bit 0 does when `m < 2` (R103). -/
def minorityLop : MinorityMode → Lop
  | .plain => .shift
  | .full => .step true

/-- R103: the operation of a register whose clock bit is `c`. With a majority every register steps, one whose clock bit is 0
too (00_scope.md R15 "Majority clocking"). -/
def selectLop (mode : MinorityMode) (maj : Bool) (c : Bool) : Lop :=
  if maj then .step false
  else if c then .hold
  else minorityLop mode

/-- The arbiter's outputs for three clock bits (R105). -/
def arbiterOf (mode : MinorityMode) (c1 c2 c3 : Bool) : Lops :=
  let m := majority c1 c2 c3
  { l1 := selectLop mode m c1, l2 := selectLop mode m c2, l3 := selectLop mode m c3 }

/-- The arbiter: it reads the three clock bits from the register values before the cycle (R100). -/
def arbiter (c : Config) (r : Regs) : Lops :=
  arbiterOf c.minority (clkBit c.leaf1 r.r1) (clkBit c.leaf2 r.r2) (clkBit c.leaf3 r.r3)

/-- One majority cycle (R104): the three selected operations in one leaf cycle. -/
def majCycle (c : Config) (r : Regs) : Regs := applyLops c (arbiter c r) r

/-- `z = o1 ^ o2 ^ o3` of the registers' output bits (42_engine.md R130). -/
def keystreamBit (r : Regs) : Bool := xor (xor (outBit r.r1) (outBit r.r2)) (outBit r.r3)

end Sys2Proof.Machine
end

