-- ==== Sys2Proof/Machine/Operands.lean ====
section
/-! DEFINITION. The operands: KLEN, and the bits of the KEY and FRAME ports in load order (20_memory.md R41, R42; 30_encoding.md R61). -/

namespace Sys2Proof.Machine

/-- Key bit number `k`, fed `k`-th: `KEY[k]`, that is bit `k mod 8` of byte `floor(k/8)` (R41). -/
def keyBit (key : BitVec 64) (k : Nat) : Bool := key.getLsbD k

/-- Frame bit number `k`, fed `k`-th after the key: `FRAME[k]` (R42). -/
def frameBit (frame : BitVec 32) (k : Nat) : Bool := frame.getLsbD k

/-- The bit fed at load index `i` of INIT, 0..85: the 64 key bits, then the 22 frame bits (42_engine.md R125, R126; 10_state.md R32). -/
def loadBit (key : BitVec 64) (frame : BitVec 32) (i : Nat) : Bool :=
  if i < keyBits then keyBit key i else frameBit frame (i - keyBits)

/-- INIT's own check (42_engine.md R123): the declared key length is KEY_BYTES. -/
def klenOk (klen : Nat) : Bool := klen == keyBytes

/-- The KEY port value of a list of key bytes: byte `b` at `KEY[8b+7 : 8b]` (R41). Bytes past the eighth have no place. -/
def packKey : List (BitVec 8) → BitVec 64
  | [] => 0#64
  | b :: bs => (packKey bs <<< 8) ||| b.setWidth 64

end Sys2Proof.Machine
end

