-- ==== Sys2Proof/Machine/Engine.lean ====
section
/-! DEFINITION. The meanings of the engine commands NOP, INIT and GEN, each one atomic step (42_engine.md R121 to R130). -/

namespace Sys2Proof.Machine

/-- NOP's effect (R122): ERR <- 00, nothing else. -/
def nopEffect (s : State) : State := s.setErr errOk

/-- INIT phase 1 (R124). -/
def phaseClear (s : State) : State := s.leafCycle (Lops.all .clear)

/-- One FEED of the bit into all three leaves together (R125, R126). -/
def feedAll (d : Bool) (s : State) : State := s.leafCycle (Lops.all (.feed d))

/-- INIT phase 2 (R125). -/
def phaseKey (key : BitVec 64) (s : State) : State := loop (fun k => feedAll (keyBit key k)) keyBits s

/-- INIT phase 3 (R126). -/
def phaseFrame (frame : BitVec 32) (s : State) : State := loop (fun k => feedAll (frameBit frame k)) frameBits s

/-- One majority cycle of the engine (41_arbiter.md R104): only the registers change. -/
def majStep (s : State) : State := s.setRegs (majCycle s.cfg s.regs)

/-- INIT phase 4 (R127; 00_scope.md R15 "Warm-up cycles"): its outputs are discarded. -/
def phaseWarmup (s : State) : State := loop (fun _ => majStep) warmupCycles s

/-- A successful INIT (R123, R128), with the KEY and FRAME values sampled at acceptance (20_memory.md R43). -/
def initEffect (key : BitVec 64) (frame : BitVec 32) (s : State) : State :=
  (phaseWarmup (phaseFrame frame (phaseKey key (phaseClear s)))).markInitDone

/-- GEN's effect (R130): the majority cycle first, then the bit from the registers it left. -/
def genEffect (s : State) : State :=
  let t := majStep s
  t.latchKs (keystreamBit t.regs)

/-- NOP (R122). -/
def execNop (s : State) : Host.Outcome State Fault Refusal := .next (nopEffect s)

/-- INIT klen (R123): any length but 8 raises INVALID_ARGUMENT and writes nothing else (60_exceptions.md R151). -/
def execInit (klen : Nat) (s : State) : Host.Outcome State Fault Refusal :=
  if klenOk klen then .next (initEffect s.keyPort s.framePort s)
  else .next (raiseError errInvalidArgument s)

/-- GEN (R130): legal in every state, before any INIT too (60_exceptions.md R164). -/
def execGen (s : State) : Host.Outcome State Fault Refusal := .next (genEffect s)

end Sys2Proof.Machine
end

