-- ==== Sys2Proof/Machine/Leaf.lean ====
section
/-! DEFINITION. The meanings of the five leaf operations on the selected leaf (40_lfsr.md R84 to R88; 00_scope.md R17 level 2). -/

namespace Sys2Proof.Machine

/-- HOLD (R84). -/
def execHold (s : State) : Host.Outcome State Fault Refusal := .next (s.applyToLeaf .hold)

/-- CLEAR (R85). -/
def execClear (s : State) : Host.Outcome State Fault Refusal := .next (s.applyToLeaf .clear)

/-- FEED d (R86). -/
def execFeed (d : Bool) (s : State) : Host.Outcome State Fault Refusal := .next (s.applyToLeaf (.feed d))

/-- STEP f (R87). -/
def execStep (f : Bool) (s : State) : Host.Outcome State Fault Refusal := .next (s.applyToLeaf (.step f))

/-- SHIFT (R88). -/
def execShift (s : State) : Host.Outcome State Fault Refusal := .next (s.applyToLeaf .shift)

end Sys2Proof.Machine
end

