-- ==== Sys2Proof/Machine/Dispatch.lean ====
section
/-! DEFINITION. One arm per instruction, each one direct call of its meaning. -/

namespace Sys2Proof.Machine

def exec (i : Instr) (s : State) : Host.Outcome State Fault Refusal :=
  match i with
  | .nop => Sys2Proof.Machine.execNop s
  | .init klen => Sys2Proof.Machine.execInit klen s
  | .gen => Sys2Proof.Machine.execGen s
  | .hold => Sys2Proof.Machine.execHold s
  | .clear => Sys2Proof.Machine.execClear s
  | .feed d => Sys2Proof.Machine.execFeed d s
  | .step f => Sys2Proof.Machine.execStep f s
  | .shift => Sys2Proof.Machine.execShift s

end Sys2Proof.Machine
end

