-- ==== Sys2Proof/Machine/Flags.lean ====
section
/-! DEFINITION. What the host reads: the STATUS register and KS (10_state.md R25 to R31). There are no flags or condition codes (R33). -/

namespace Sys2Proof.Machine

/-- STATUS.BUSY: a command is executing (R29). -/
def State.busy (s : State) : Bool :=
  match s.seq with
  | .idle => false
  | .accepted _ _ _ => true
  | .load _ _ _ => true
  | .warmup _ => true

/-- The 8-bit STATUS register (R25): bits 7..5 zero, BUSY 4, ERR 3..2, KS_VALID 1, READY 0. -/
def State.status (s : State) : BitVec 8 :=
  0#3 ++ BitVec.ofBool s.busy ++ s.err ++ BitVec.ofBool s.ksValid ++ BitVec.ofBool s.ready

/-- The command port's ready output: NOT BUSY (70_reset_and_hazards.md R174). -/
def State.cmdReady (s : State) : Bool := !s.busy

/-- Everything the host sees (R31): STATUS and KS. -/
def State.hostView (s : State) : BitVec 8 × Bool := (s.status, s.ks)

end Sys2Proof.Machine
end

