-- ==== Sys2Proof/Machine/Sequencer.lean ====
section
/-! DEFINITION. The engine one leaf cycle at a time: the sequencer, the words driven into the leaves, the command handshake and reset (10_state.md R29, R32; 30_encoding.md R68; 70_reset_and_hazards.md R170 to R179). -/

namespace Sys2Proof.Machine

/-- The pins the host drives in one cycle, beside KEY and FRAME (which are `keyPort` and `framePort`): reset, `cmd_valid` and
the command word (42_engine.md R120, 70_reset_and_hazards.md R174). -/
structure Pins where
  rst : Bool
  cmdValid : Bool
  cmd : BitVec 8
  deriving DecidableEq, Repr

/-- Whether an accepted word starts INIT's four phases: it decodes to INIT with KLEN 8 (42_engine.md R123). -/
def startsInit (w : BitVec 8) : Bool :=
  match decodeCmd8 w with
  | .ok (.init klen) => klenOk klen
  | .ok .nop | .ok .gen => false
  | .ok .hold | .ok .clear | .ok (.feed _) | .ok (.step _) | .ok .shift | .error _ => false

/-- The operations driven into the leaves in this leaf cycle (30_encoding.md R68): the sequencer's CLEAR and FEEDs during INIT
loading, the arbiter's selection in a majority cycle, HOLD otherwise. -/
def driven (s : State) : Lops :=
  match s.seq with
  | .idle => Lops.all .hold
  | .accepted w _ _ =>
    match decodeCmd8 w with
    | .ok (.init klen) => if klenOk klen then Lops.all .clear else Lops.all .hold
    | .ok .gen => arbiter s.cfg s.regs
    | .ok .nop | .ok .hold | .ok .clear | .ok (.feed _) | .ok (.step _) | .ok .shift | .error _ => Lops.all .hold
  | .load i key frame => Lops.all (.feed (loadBit key frame i.val))
  | .warmup _ => arbiter s.cfg s.regs

/-- The sequencer after load index `i`: the next index, or the warm-up after index 85 (10_state.md R32). -/
def nextLoad (i : Fin 86) (key : BitVec 64) (frame : BitVec 32) : Sequencer :=
  if h : i.val + 1 < 86 then .load ⟨i.val + 1, h⟩ key frame else .warmup 0

/-- The end of a command: STATUS and KS change in this cycle, all together (70_reset_and_hazards.md R175), and BUSY returns to 0. -/
def completeAccepted (w : BitVec 8) (s : State) : State :=
  match decodeCmd8 w with
  | .ok .nop => nopEffect s
  | .ok .gen => s.latchKs (keystreamBit s.regs)
  | .ok (.init _) => raiseError errInvalidArgument s
  | .ok .hold | .ok .clear | .ok (.feed _) | .ok (.step _) | .ok .shift | .error _ => raiseError errIllegalCommand s

/-- One leaf cycle of the command in progress: the leaves apply the driven words, and the sequencer moves on. INIT's CLEAR,
GEN's majority cycle, a NOP and a failing command each take the first cycle after acceptance. DESIGN CHOICE (log 10): one leaf update per cycle. -/
def advance (s : State) : State :=
  let t := s.leafCycle (driven s)
  match s.seq with
  | .idle => t
  | .accepted w key frame =>
    if startsInit w then t.setSeq (.load 0 key frame)
    else (completeAccepted w t).setSeq .idle
  | .load i key frame => t.setSeq (nextLoad i key frame)
  | .warmup k =>
    if h : k.val + 1 < 100 then t.setSeq (.warmup ⟨k.val + 1, h⟩)
    else t.markInitDone.setSeq .idle

/-- How many leaf cycles the command in progress still needs (70_reset_and_hazards.md R179). -/
def cyclesLeft : Sequencer → Nat
  | .idle => 0
  | .accepted w _ _ => if startsInit w then 187 else 1
  | .load i _ _ => 186 - i.val
  | .warmup k => 100 - k.val

/-- The command in progress run to its completion. -/
def finish (s : State) : State := loop (fun _ => advance) (cyclesLeft s.seq) s

/-- Acceptance of a command (70_reset_and_hazards.md R174): BUSY is set and the word, KEY and FRAME are sampled (20_memory.md R43). -/
def accept (w : BitVec 8) (s : State) : State := s.setSeq (.accepted w s.keyPort s.framePort)

/-- One cycle of the hardware: reset wins; an idle engine accepts a valid word; a busy one goes on and looks at neither
`cmd_valid` nor the word (70_reset_and_hazards.md R171, R174). -/
def cycle (p : Pins) (s : State) : State :=
  if p.rst then resetEngine s
  else if s.cmdReady then
    if p.cmdValid then accept p.cmd s else advance s
  else advance s

/-- Cycles with the given pins, the first of the list first. -/
def runCycles : List Pins → State → State
  | [], s => s
  | p :: ps, s => runCycles ps (cycle p s)

end Sys2Proof.Machine
end

