-- ==== Sys2Proof/Machine/Fetch.lean ====
section
/-! DEFINITION. Taking the host's next action: decoding a word and running it, raising ILLEGAL_COMMAND, faulting on a reserved leaf word (42_engine.md R121; 40_lfsr.md R89). -/

namespace Sys2Proof.Machine

/-- An accepted command word (R121): decoded, then executed; a word that is no command ends with ILLEGAL_COMMAND (60_exceptions.md R152). -/
def runCommand (w : BitVec 8) (s : State) : Host.Outcome State Fault Refusal :=
  match decodeCmd8 w with
  | .ok i => exec i s
  | .error _ => .next (raiseError errIllegalCommand s)

/-- A LOP4 word driven into leaf `id` (00_scope.md R17 level 2); a reserved one is `fault(reserved_lop)` (40_lfsr.md R89). -/
def runLeafWord (id : LeafId) (w : BitVec 4) (s : State) : Host.Outcome State Fault Refusal :=
  match decodeLop4 w with
  | .ok i => exec i (s.setLeafSel id)
  | .error _ => .fault .reservedLop

/-- One action, on an idle engine. -/
def takeInput (a : Input) (s : State) : Host.Outcome State Fault Refusal :=
  match a with
  | .command w => runCommand w s
  | .drivePorts key frame => .next (s.setPorts key frame)
  | .reset => .next (resetEngine s)
  | .leaf id w => runLeafWord id w s
  | .majCycle => .next (majStep s)

/-- Whether an action is taken while a command is in progress: only reset is (70_reset_and_hazards.md R171, R174). -/
def takenWhileBusy : Input → Bool
  | .command _ => false
  | .drivePorts _ _ => false
  | .reset => true
  | .leaf _ _ => false
  | .majCycle => false

/-- The machine's step: the oldest waiting action, in issue order (20_memory.md R46). A busy engine accepts nothing but reset;
its command is finished first and the action waits (70_reset_and_hazards.md R174; log 12). With nothing to do the engine idles (60_exceptions.md R163). -/
def takeNext (s : State) : Host.Outcome State Fault Refusal :=
  match s.inputs with
  | [] => .next (finish s)
  | a :: rest =>
    if s.busy && !takenWhileBusy a then .next (finish s)
    else takeInput a (s.setInputs rest)

/-- A table word put where the next step takes it: at the head of the waiting actions, on an idle engine (log 9). -/
def presentWord (w : Word) (s : State) : State :=
  match w with
  | .cmd8 c => { s with seq := .idle, inputs := .command c :: s.inputs }
  | .lop4 l => { s with seq := .idle, inputs := .leaf s.leafSel l :: s.inputs }

end Sys2Proof.Machine
end

