-- ==== Sys2Proof/Machine/Step.lean ====
section
/-! DEFINITION. The machine's one step, and placing an opcode-table word where the next step takes it. -/

namespace Sys2Proof.Machine

/-- One step: one host or harness action (00_scope.md R17; 42_engine.md R121). -/
def step (s : State) : Host.Outcome State Fault Refusal := takeNext s

/-- The table word presented on its port, so that the very next step runs it (log 9). -/
def State.withFetchWord (s : State) (nbits w : Nat) : State := presentWord (tableWord nbits w) s

end Sys2Proof.Machine
end

