-- ==== Sys2Proof/Machine/Assembler.lean ====
section
/-! DEFINITION. The assembler text of both formats, with its pseudo-instructions (30_encoding.md R69 to R71). -/

namespace Sys2Proof.Machine

/-- A line without its comment: `;` to the end of the line (R69). -/
def dropComment : List Char → List Char
  | [] => []
  | c :: cs => if c = ';' then [] else c :: dropComment cs

/-- The blank-separated words of a line, in capitals: engine mnemonics are case-insensitive (R69). DESIGN CHOICE (log 15): so are
leaf mnemonics, the directive `.cmd` and the letters of numbers. `cur` is the word being read, reversed. -/
def tokensFrom (cur : List Char) : List Char → List (List Char)
  | [] => if cur.isEmpty then [] else [cur.reverse]
  | c :: cs =>
    if c = ' ' || c = '\t' then
      (if cur.isEmpty then tokensFrom [] cs else cur.reverse :: tokensFrom [] cs)
    else tokensFrom (c.toUpper :: cur) cs

def tokens (line : List Char) : List (List Char) := tokensFrom [] (dropComment line)

/-- A digit's value, decimal or hexadecimal (capitals). -/
def digitVal (c : Char) : Option Nat :=
  if '0' ≤ c ∧ c ≤ '9' then some (c.toNat - '0'.toNat)
  else if 'A' ≤ c ∧ c ≤ 'F' then some (c.toNat - 'A'.toNat + 10)
  else none

/-- Digits in a base, the most significant first, onto an accumulator. -/
def digitsFrom (base acc : Nat) : List Char → Option Nat
  | [] => some acc
  | c :: cs =>
    match digitVal c with
    | some d => if d < base then digitsFrom base (acc * base + d) cs else none
    | none => none

/-- A decimal or `0x` hexadecimal integer (R69), its letters already in capitals. DESIGN CHOICE (log 15): `0x` and the digits are
taken in either case, as `tokens` gives them, and leading zeros are allowed. -/
def number : List Char → Option Nat
  | '0' :: 'X' :: c :: cs => digitsFrom 16 0 (c :: cs)
  | c :: cs => digitsFrom 10 0 (c :: cs)
  | [] => none

/-- An instruction's CMD8 word, refused when it is not well formed or is no command. -/
def asmCmd (i : Instr) : Option (BitVec 8) :=
  if i.wf then
    match encode i with
    | .cmd8 w => some w
    | .lop4 _ => none
  else none

/-- An instruction's LOP4 word. -/
def asmLop (i : Instr) : Option (BitVec 4) :=
  match encode i with
  | .cmd8 _ => none
  | .lop4 w => some w

/-- One line of engine assembler (R69, R70): the words it emits, or none where the assembler refuses it. -/
def assembleCmdLine (line : List Char) : Option (List (BitVec 8)) :=
  match tokens line with
  | [] => some []
  | [['N', 'O', 'P']] => (asmCmd .nop).map (fun w => [w])
  | [['I', 'N', 'I', 'T']] => (asmCmd (.init 8)).map (fun w => [w])
  | [['I', 'N', 'I', 'T'], k] =>
    match number k with
    | some n => (asmCmd (.init n)).map (fun w => [w])
    | none => none
  | [['G', 'E', 'N']] => (asmCmd .gen).map (fun w => [w])
  | [['G', 'E', 'N', 'E', 'R', 'A', 'T', 'E'], k] =>
    match number k, asmCmd .gen with
    | some n, some w => some (List.replicate n w)
    | _, _ => none
  | [['.', 'C', 'M', 'D'], ['0', 'X', a, b]] =>
    match digitsFrom 16 0 [a, b] with
    | some n => some [BitVec.ofNat 8 n]
    | none => none
  | _ => none

/-- The operand of FEED and STEP: 0 or 1 (R71). DESIGN CHOICE (log 15): written as any number of that value. -/
def bitOperand (k : List Char) : Option Bool :=
  match number k with
  | some 0 => some false
  | some 1 => some true
  | _ => none

/-- One line of leaf assembler (R71). DESIGN CHOICE (log 15): mnemonics in either case and `;` comments, which R69 gives engine
lines only. -/
def assembleLopLine (line : List Char) : Option (List (BitVec 4)) :=
  match tokens line with
  | [] => some []
  | [['H', 'O', 'L', 'D']] => (asmLop .hold).map (fun w => [w])
  | [['C', 'L', 'E', 'A', 'R']] => (asmLop .clear).map (fun w => [w])
  | [['F', 'E', 'E', 'D'], k] =>
    match bitOperand k with
    | some d => (asmLop (.feed d)).map (fun w => [w])
    | none => none
  | [['S', 'T', 'E', 'P']] => (asmLop (.step false)).map (fun w => [w])
  | [['S', 'T', 'E', 'P', '.', 'F']] => (asmLop (.step true)).map (fun w => [w])
  | [['S', 'T', 'E', 'P'], k] =>
    match bitOperand k with
    | some f => (asmLop (.step f)).map (fun w => [w])
    | none => none
  | [['S', 'H', 'I', 'F', 'T']] => (asmLop .shift).map (fun w => [w])
  | _ => none

/-- A program's lines in order: the words of each, or none where some line is refused. -/
def assembleCmds : List (List Char) → Option (List (BitVec 8))
  | [] => some []
  | l :: ls =>
    match assembleCmdLine l, assembleCmds ls with
    | some a, some b => some (a ++ b)
    | _, _ => none

end Sys2Proof.Machine
end

