-- ==== Sys2Proof/Machine/Construct.lean ====
section
/-! DEFINITION. Building an engine's configuration from numbers, with the legality check (00_scope.md R7, R8). -/

namespace Sys2Proof.Machine

/-- A configuration as numbers, not yet checked. MINORITY_MODE has R7's default where none is given. -/
structure ConfigNumbers where
  tap1 : Nat
  tap2 : Nat
  tap3 : Nat
  clk1 : Nat
  clk2 : Nat
  clk3 : Nat
  minority : MinorityMode := MinorityMode.byDefault
  frameW : Nat
  initLatency : Nat
  genLatency : Nat
  deriving DecidableEq, Repr

/-- R8's legality, and R7's bound on the latencies. -/
def ConfigNumbers.legal (n : ConfigNumbers) : Bool :=
  decide (n.tap1 < 2 ^ W1 ∧ n.tap2 < 2 ^ W2 ∧ n.tap3 < 2 ^ W3 ∧ n.clk1 ≤ W1 - 1 ∧ n.clk2 ≤ W2 - 1 ∧ n.clk3 ≤ W3 - 1
    ∧ frameBits ≤ n.frameW ∧ 1 ≤ n.initLatency ∧ 1 ≤ n.genLatency)

/-- The configuration of legal numbers; an illegal one is refused (R8). -/
def buildConfig (n : ConfigNumbers) : Option Config :=
  if n.legal then
    some
      { leaf1 := { tap := BitVec.ofNat W1 n.tap1, clk := Fin.ofNat W1 n.clk1 }
        leaf2 := { tap := BitVec.ofNat W2 n.tap2, clk := Fin.ofNat W2 n.clk2 }
        leaf3 := { tap := BitVec.ofNat W3 n.tap3, clk := Fin.ofNat W3 n.clk3 }
        minority := n.minority
        frameW := n.frameW
        initLatency := Nat.toPNat' n.initLatency
        genLatency := Nat.toPNat' n.genLatency }
  else none

end Sys2Proof.Machine
end

