-- ==== Sys2Proof/Machine/Driver.lean ====
section
/-! DEFINITION. The host-side functions the spec defines over commands: generate, init, pack32 (42_engine.md R132 to R134), and what the keystream is for (00_scope.md R15). -/

namespace Sys2Proof.Machine

/-- The host issues one command word and the engine takes it. -/
def issue (w : BitVec 8) (s : State) : Host.Outcome State Fault Refusal :=
  step (s.setInputs (.command w :: s.inputs))

/-- The GEN word (30_encoding.md R62). -/
abbrev genWord : BitVec 8 := 0x02#8

/-- The successful INIT word, KLEN 8 (30_encoding.md R62). -/
abbrev initWord : BitVec 8 := 0x41#8

/-- A list of command words issued in order, the host reading KS after each GEN: the bits read, and the state left. None only
where a step stops. -/
def hostRun : List (BitVec 8) → State → Option (List Bool × State)
  | [], s => some ([], s)
  | w :: ws, s =>
    match issue w s with
    | .next t =>
      match hostRun ws t with
      | some (bits, u) => some (if w = genWord then t.ks :: bits else bits, u)
      | none => none
    | .fault _ => none
    | .refused _ => none

/-- `generate(n)` (R132): `n` GEN commands, the host reading KS after each. -/
def generate (n : Nat) (s : State) : Option (List Bool × State) := hostRun (List.replicate n genWord) s

/-- The keystream XORed with a text, one bit of the core for each bit of the text (00_scope.md R15 "Keystream"): plaintext to
ciphertext, or ciphertext to plaintext. Answers the other text and the engine's state. -/
def hostCipher (text : List Bool) (s : State) : Option (List Bool × State) :=
  match generate text.length s with
  | some (bits, t) => some (List.zipWith xor text bits, t)
  | none => none

/-- `pack32` (R134): shift left, OR the bit in, truncate to 32 bits. -/
def pack32Onto : List Bool → BitVec 32 → BitVec 32
  | [], o => o
  | b :: bs, o => pack32Onto bs ((o <<< 1) ||| (BitVec.ofBool b).setWidth 32)

def pack32 (bits : List Bool) : BitVec 32 := pack32Onto bits 0#32

/-- The host's `init(key, frame)` (R133). A key of other than 8 bytes: INIT k where k fits KLEN, else no command at all and the
host reports the error itself. Answers the engine's state and the error code the host sees. -/
def hostInit (key : List (BitVec 8)) (frame : Nat) (s : State) : Option (State × BitVec 2) :=
  if key.length = keyBytes then
    match issue initWord (s.setPorts (packKey key) (BitVec.ofNat 32 frame)) with
    | .next t => some (t, t.err)
    | .fault _ => none
    | .refused _ => none
  else if key.length ≤ 15 then
    match issue ((BitVec.ofNat 8 key.length <<< 3) ||| 0x01#8) s with
    | .next t => some (t, t.err)
    | .fault _ => none
    | .refused _ => none
  else some (s, errInvalidArgument)

/-- One step of engine number `n` of several (60_exceptions.md R161): the others are not touched. None where there is no such
engine or its step stops. -/
def stepInstance (n : Nat) (engines : List State) : Option (List State) :=
  match engines[n]? with
  | some s =>
    match step s with
    | .next t => some (engines.set n t)
    | .fault _ => none
    | .refused _ => none
  | none => none

end Sys2Proof.Machine
end

