-- ==== Sys2Proof/Safety.lean ====
section
/-! DEFINITION. What a safe state and a safe run are, and the spec's pseudocode on naturals, in the terms the statements use. -/

namespace Sys2Proof.Machine

/-- The invariant of the states the engine exposes between commands: ERR holds a written code, never 0b11
(10_state.md R25, 60_exceptions.md R150), and no command is in progress (10_state.md R29). -/
def State.Inv (s : State) : Prop := s.err ≠ 0b11#2 ∧ s.seq = .idle

/-- The seven legal LOP4 words (30_encoding.md R66). -/
def legalLopWords : List (BitVec 4) := [0x0#4, 0x1#4, 0x2#4, 0xA#4, 0x3#4, 0xB#4, 0x4#4]

/-- The nine reserved LOP4 words (40_lfsr.md R89, 93_implementation_defined.md I2). -/
def reservedLopWords : List (BitVec 4) := [0x5#4, 0x6#4, 0x7#4, 0x8#4, 0x9#4, 0xC#4, 0xD#4, 0xE#4, 0xF#4]

/-- An action that cannot fault: anything but a reserved LOP4 word (40_lfsr.md R89). -/
def Input.safe : Input → Bool
  | .command _ => true
  | .drivePorts _ _ => true
  | .reset => true
  | .leaf _ w => decide (w ∈ legalLopWords)
  | .majCycle => true

/-- Every waiting action is safe. -/
def State.inputsSafe (s : State) : Bool := s.inputs.all Input.safe

/-- The fields of a command word as naturals (30_encoding.md R61): OP, KLEN, RSV. -/
def opField (w : BitVec 8) : Nat := w.toNat % 8
def klenField (w : BitVec 8) : Nat := w.toNat / 8 % 16
def rsvField (w : BitVec 8) : Nat := w.toNat / 128

/-- The command words R63 decodes to no command, in R152's words: reserved OP, bit 7 set, NOP or GEN with KLEN bits. -/
def illegalWord (w : BitVec 8) : Prop :=
  3 ≤ opField w ∨ rsvField w = 1 ∨ ((opField w = 0 ∨ opField w = 2) ∧ klenField w ≠ 0)

/-- STEP's pseudocode on naturals (40_lfsr.md R87). -/
def stepNat (width tap v : Nat) : Nat :=
  if v % 2 = 1 then ((v ^^^ tap) >>> 1) ||| (1 <<< (width - 1)) else v >>> 1

/-- The clock bit of leaf Ri as a 0/1 natural (41_arbiter.md R100). -/
def clockNat (c : Config) (r : Regs) (i : LeafId) : Nat := r.val i / 2 ^ clkPos c i % 2

/-- The majority count of R101 on naturals. -/
def countNat (c : Config) (r : Regs) : Nat := clockNat c r .r1 + clockNat c r .r2 + clockNat c r .r3

/-- MAJ_CYCLE's pseudocode on naturals (41_arbiter.md R103, R104): `r'` is what one majority cycle leaves of `r`. -/
def MajCycleLeaves (c : Config) (r r' : Regs) : Prop :=
  ∀ i, r'.val i =
    if 2 ≤ countNat c r then stepNat i.width (tapVal c i) (r.val i)
    else if clockNat c r i = 1 then r.val i
    else
      match c.minority with
      | .plain => r.val i >>> 1
      | .full => stepNat i.width (tapVal c i) (r.val i)

/-- The three LOP4 words driven in a leaf cycle (30_encoding.md R68). -/
def Lops.words (l : Lops) : List (BitVec 4) := [l.l1.word, l.l2.word, l.l3.word]

/-- Which of the three leaves hold in a leaf cycle. -/
def Lops.held (l : Lops) : List Bool := [decide (l.l1 = .hold), decide (l.l2 = .hold), decide (l.l3 = .hold)]

/-- The word R105 writes P / S1: SHIFT with PLAIN, STEP 1 with FULL. -/
def minorityWord : MinorityMode → BitVec 4
  | .plain => 0x4#4
  | .full => 0xB#4

/-- A row of R105's table: `m`, the predicate and the three words driven. -/
def arbiterRow (mode : MinorityMode) (c1 c2 c3 : Bool) : Nat × Bool × List (BitVec 4) :=
  (majorityCount c1 c2 c3, majority c1 c2 c3, (arbiterOf mode c1 c2 c3).words)

/-- `v` is the register value of R129's closed form: bit `j` is frame bit `22 - j` for `j >= 1`, and bit 0 is 0. -/
def LoadedFrom {w : Nat} (frame : BitVec 32) (v : BitVec w) : Prop :=
  ∀ j, j < w → v.getLsbD j = (decide (1 ≤ j) && frame.getLsbD (22 - j))

/-- R92's inverse of STEP. -/
def stepInverse {w : Nat} (tap : BitVec w) (v : BitVec w) : BitVec w :=
  if v.getLsbD (w - 1) then ((v <<< 1) ^^^ (tap &&& ~~~(1#w))) ||| 1#w else v <<< 1

/-- The bits fed to a leaf one after the other, the first of the list first (40_lfsr.md R90). -/
def feedMany {w : Nat} : List Bool → BitVec w → BitVec w
  | [], v => v
  | d :: ds, v => feedMany ds (leafFeed d v)

end Sys2Proof.Machine
end

