-- ==== Sys2Proof/Certificates/Slice0/Obligations.lean ====
section
/-! DEFINITION. The statements for the provers, one per rule or group of rules of the spec. -/

open Sys2Proof Sys2Proof.Machine

/-! Reset. -/

/-- R35: every value at reset; FRAME_W too (R7). Open parameters, pins and the model's own fields are not claimed. -/
def Obligations.ResetValuesAreTheSpecs : Prop :=
  State.reset.regs.val .r1 = 0 ∧ State.reset.regs.val .r2 = 0 ∧ State.reset.regs.val .r3 = 0 ∧
  State.reset.ready = false ∧ State.reset.ksValid = false ∧ State.reset.err = 0b00#2 ∧
  State.reset.busy = false ∧ State.reset.status.extractLsb' 5 3 = 0#3 ∧ State.reset.ks = false ∧
  State.reset.seq = .idle

/-- R171: reset leaves the reset values whatever was executing, as a host action of the step and as the reset pin of a cycle. -/
def Obligations.ResetAbandonsWhateverExecutes : Prop :=
  ∀ s : State,
    (∀ rest, s.inputs = .reset :: rest →
      ∃ t, step s = .next t ∧ t.regs = { r1 := 0, r2 := 0, r3 := 0 } ∧ t.ready = false ∧ t.ksValid = false ∧
        t.err = 0b00#2 ∧ t.ks = false ∧ t.seq = .idle ∧ t.busy = false) ∧
    (∀ p : Pins, p.rst = true →
      (cycle p s).regs = { r1 := 0, r2 := 0, r3 := 0 } ∧ (cycle p s).ready = false ∧ (cycle p s).ksValid = false ∧
        (cycle p s).err = 0b00#2 ∧ (cycle p s).ks = false ∧ (cycle p s).seq = .idle ∧ (cycle p s).busy = false)

/-! Encoding. -/

/-- R63: the decoder's checks in order, on the fields as naturals, how many of the 256 words fall in each class, and that of the
INIT words only 0x41 passes INIT's own check. -/
def Obligations.CommandDecoderFollowsItsChecks : Prop :=
  (∀ w : BitVec 8, decodeCmd8 w =
    if 3 ≤ opField w then .error .illegalCommand
    else if rsvField w = 1 then .error .illegalCommand
    else if opField w = 0 then (if klenField w ≠ 0 then .error .illegalCommand else .ok .nop)
    else if opField w = 2 then (if klenField w ≠ 0 then .error .illegalCommand else .ok .gen)
    else .ok (.init (klenField w))) ∧
  ((List.range 256).filter fun n => decide (decode (.cmd8 (BitVec.ofNat 8 n)) matches .ok .nop)).length = 1 ∧
  ((List.range 256).filter fun n => decide (decode (.cmd8 (BitVec.ofNat 8 n)) matches .ok .gen)).length = 1 ∧
  ((List.range 256).filter fun n => decide (decode (.cmd8 (BitVec.ofNat 8 n)) matches .ok (.init _))).length = 16 ∧
  ((List.range 256).filter fun n => decide (decode (.cmd8 (BitVec.ofNat 8 n)) matches .error .illegalCommand)).length = 238 ∧
  ∀ w : BitVec 8, startsInit w = true ↔ w = 0x41#8

/-- R66, R89: the seven legal LOP4 words and what each is; every other word is reserved. -/
def Obligations.LeafWordDecoderFollowsTheMap : Prop :=
  decodeLop4 0x0#4 = .ok .hold ∧ decodeLop4 0x1#4 = .ok .clear ∧
  decodeLop4 0x2#4 = .ok (.feed false) ∧ decodeLop4 0xA#4 = .ok (.feed true) ∧
  decodeLop4 0x3#4 = .ok (.step false) ∧ decodeLop4 0xB#4 = .ok (.step true) ∧
  decodeLop4 0x4#4 = .ok .shift ∧
  ∀ w : BitVec 4, w ∉ legalLopWords → decodeLop4 w = .error .reservedLop

/-- Decoding the word of any well-formed instruction gives the instruction back, every operand at every value. -/
def Obligations.DecodeOfEncodeIsTheInstruction : Prop :=
  ∀ i : Instr, i.wf = true → decode (encode i) = .ok i

/-- The other direction: a word that decodes is the word of what it decodes to, and that is well formed. -/
def Obligations.EncodeOfDecodeIsTheWord : Prop :=
  ∀ (w : Word) (i : Instr), decode w = .ok i → i.wf = true ∧ encode i = w

/-- A few words written out bit by bit from R62 and R66. -/
def Obligations.WrittenWordsDecode : Prop :=
  decode (.cmd8 0b00000000#8) = .ok .nop ∧ decode (.cmd8 0b01000001#8) = .ok (.init 8) ∧
  decode (.cmd8 0b00000010#8) = .ok .gen ∧ decode (.lop4 0b1010#4) = .ok (.feed true) ∧
  decode (.lop4 0b0011#4) = .ok (.step false) ∧ decode (.lop4 0b0100#4) = .ok .shift

/-! The step. -/

/-- An idle engine's step on a command word that decodes is `exec` of the instruction, the action taken off the list. -/
def Obligations.StepRunsTheDecodedCommand : Prop :=
  ∀ (s : State) (w : BitVec 8) (rest : List Input) (i : Instr),
    s.seq = .idle → s.inputs = .command w :: rest → decode (.cmd8 w) = .ok i →
    step s = exec i { s with inputs := rest }

/-- An opcode-table word of any well-formed instruction, given with its own number of bits, is that instruction to
`decodeTableWord`, and presented it is what the very next step runs. How a table word is presented is the model's (logs 8, 9). -/
def Obligations.TableWordIsTheNextInstruction : Prop :=
  ∀ (s : State) (i : Instr), i.wf = true →
    decodeTableWord (encode i).width (encode i).toNat = some i ∧
    step (s.withFetchWord (encode i).width (encode i).toNat) = exec i { s with seq := .idle }

/-- The same for a LOP4 word on a leaf's control input: `exec` with that leaf selected. -/
def Obligations.StepRunsTheDecodedLeafWord : Prop :=
  ∀ (s : State) (id : LeafId) (w : BitVec 4) (rest : List Input) (i : Instr),
    s.seq = .idle → s.inputs = .leaf id w :: rest → decode (.lop4 w) = .ok i →
    step s = exec i { s with inputs := rest, leafSel := id }

/-- R152 (with R154's priority: bit 7 set on an INIT word with a bad KLEN is illegal too): ERR 0b10 and nothing else. -/
def Obligations.IllegalCommandWritesErrOnly : Prop :=
  ∀ (s : State) (w : BitVec 8) (rest : List Input),
    s.seq = .idle → s.inputs = .command w :: rest → illegalWord w →
    step s = .next { s with inputs := rest, err := 0b10#2 }

/-- R89: a reserved LOP4 word on a leaf faults, no other word does, and the engine never drives one. -/
def Obligations.ReservedLeafWordFaults : Prop :=
  (∀ (s : State) (id : LeafId) (w : BitVec 4) (rest : List Input),
    s.seq = .idle → s.inputs = .leaf id w :: rest →
    (step s = .fault .reservedLop ↔ w ∈ reservedLopWords)) ∧
  ∀ s : State, (driven s).l1.word ∉ reservedLopWords ∧ (driven s).l2.word ∉ reservedLopWords ∧
    (driven s).l3.word ∉ reservedLopWords

/-- R163: an idle engine with nothing to do stays as it is, HOLD driven into every leaf. -/
def Obligations.IdleEngineHoldsEveryLeaf : Prop :=
  ∀ s : State, s.seq = .idle →
    (s.inputs = [] → step s = .next s) ∧
    (driven s).l1.word = 0x0#4 ∧ (driven s).l2.word = 0x0#4 ∧ (driven s).l3.word = 0x0#4 ∧
    ∀ p : Pins, p.rst = false → p.cmdValid = false → cycle p s = s

/-- New values on the KEY and FRAME pins change nothing but the pins. How the host's port changes reach the machine is the
model's choice (log 4). -/
def Obligations.DrivingPortsChangesOnlyThePins : Prop :=
  ∀ (s : State) (k : BitVec 64) (f : BitVec 32) (rest : List Input),
    s.seq = .idle → s.inputs = .drivePorts k f :: rest →
    step s = .next { s with inputs := rest, keyPort := k, framePort := f }

/-- R164: no command, port change, reset, legal leaf word or majority cycle ever stops the machine, from any state. -/
def Obligations.SafeActionsNeverStopTheMachine : Prop :=
  ∀ s : State, s.inputsSafe = true → ∃ t, step s = .next t ∧ t.inputsSafe = true

/-! Commands. -/

/-- R122. -/
def Obligations.NopWritesErrOnly : Prop :=
  decodeCmd8 0x00#8 = .ok .nop ∧ ∀ s : State, exec .nop s = .next { s with err := 0b00#2 }

/-- R151, at the command port and at `exec`: KLEN other than 8 writes ERR 0b01 and nothing else. For a KLEN above 15, which no
word encodes, `exec`'s answer is the model's reading (log 14), not R151's. -/
def Obligations.InitWithWrongLengthWritesErrOnly : Prop :=
  (∀ (klen : Nat) (s : State), klen ≠ 8 → exec (.init klen) s = .next { s with err := 0b01#2 }) ∧
  ∀ (s : State) (w : BitVec 8) (rest : List Input),
    s.seq = .idle → s.inputs = .command w :: rest → opField w = 1 → rsvField w = 0 → klenField w ≠ 8 →
    step s = .next { s with inputs := rest, err := 0b01#2 }

/-- R123 (its successful branch), R127, R128, R129 (its closed form): a successful INIT loads the closed form of FRAME[21:0], runs 100 majority cycles on it, sets READY,
clears KS_VALID, writes ERR 0b00 and leaves everything else, KS too. No bit of KEY and none of the old registers appears. -/
def Obligations.InitLoadsFrameAndWarmsUp : Prop :=
  ∀ s : State, ∃ loaded : Regs,
    LoadedFrom s.framePort loaded.r1 ∧ LoadedFrom s.framePort loaded.r2 ∧ LoadedFrom s.framePort loaded.r3 ∧
    exec (.init 8) s = .next { s with
      regs := loop (fun _ r => majCycle s.cfg r) 100 loaded, ready := true, ksValid := false, err := 0b00#2 }

/-- R124, R125, R126 as one load: CLEAR, then the key's bits and the frame's bits fed in order, all three leaves together. -/
def Obligations.InitLoadPhasesFeedKeyThenFrame : Prop :=
  ∀ s : State,
    phaseFrame s.framePort (phaseKey s.keyPort (phaseClear s)) = { s with regs :=
      { r1 := feedMany ((List.range 64).map s.keyPort.getLsbD ++ (List.range 22).map s.framePort.getLsbD) 0#19
        r2 := feedMany ((List.range 64).map s.keyPort.getLsbD ++ (List.range 22).map s.framePort.getLsbD) 0#22
        r3 := feedMany ((List.range 64).map s.keyPort.getLsbD ++ (List.range 22).map s.framePort.getLsbD) 0#23 } }

/-- R136: INIT with frames that agree on bits 21..0 leaves the same registers and status, whatever the rest of the port holds. -/
def Obligations.InitIgnoresHighFrameBits : Prop :=
  ∀ (s : State) (f g : BitVec 32), (∀ k, k < 22 → f.getLsbD k = g.getLsbD k) →
    ∃ t : State,
      exec (.init 8) { s with framePort := f } = .next { t with framePort := f } ∧
      exec (.init 8) { s with framePort := g } = .next { t with framePort := g }

/-- R130: GEN in every state: the majority cycle, then the XOR of the three top bits into KS; KS_VALID 1, ERR 0b00, all else kept. -/
def Obligations.GenClocksThenLatchesTheBit : Prop :=
  decodeCmd8 0x02#8 = .ok .gen ∧
  ∀ s : State, ∃ r : Regs,
    MajCycleLeaves s.cfg s.regs r ∧
    exec .gen s = .next { s with
      regs := r, ksValid := true, err := 0b00#2,
      ks := decide ((r.val .r1 / 2 ^ 18 + r.val .r2 / 2 ^ 21 + r.val .r3 / 2 ^ 22) % 2 = 1) }

/-- R27, R28 (and what R26 and R30 say of commands): what reset and any command word leave in READY, KS_VALID, ERR; only GEN
writes KS, only GEN and a successful INIT write the registers, and nothing else of the state changes. -/
def Obligations.StatusFieldsAfterAnyCommand : Prop :=
  (State.reset.ready = false ∧ State.reset.ksValid = false ∧ State.reset.err = 0b00#2 ∧ State.reset.ks = false) ∧
  ∀ (s : State) (w : BitVec 8) (rest : List Input),
    s.seq = .idle → s.inputs = .command w :: rest →
    ∃ t : State, step s = .next t ∧
      t.ready = (decide (w = 0x41#8) || s.ready) ∧
      t.ksValid = (if w = 0x41#8 then false else if w = 0x02#8 then true else s.ksValid) ∧
      t.err = (if w = 0x00#8 ∨ w = 0x02#8 ∨ w = 0x41#8 then 0b00#2
        else if opField w = 1 ∧ rsvField w = 0 then 0b01#2 else 0b10#2) ∧
      (w ≠ 0x02#8 → t.ks = s.ks) ∧
      (w ≠ 0x02#8 → w ≠ 0x41#8 → t.regs = s.regs) ∧
      t.seq = .idle ∧ t.inputs = rest ∧ t.cfg = s.cfg ∧ t.keyPort = s.keyPort ∧ t.framePort = s.framePort ∧
      t.leafSel = s.leafSel

/-- R25: the fields of the STATUS byte at their places, bits 7..5 zero; the byte as a number. -/
def Obligations.StatusByteHasItsFieldsInPlace : Prop :=
  ∀ s : State,
    s.status.toNat = s.ready.toNat + 2 * s.ksValid.toNat + 4 * s.err.toNat + 16 * s.busy.toNat ∧
    s.status.extractLsb' 5 3 = 0#3

/-! The arbiter. -/

/-- R101, R102: `m` is the sum of the clock bits, and the predicate is its sum-of-products form. -/
def Obligations.MajorityIsTheSumOfProducts : Prop :=
  ∀ c1 c2 c3 : Bool,
    majorityCount c1 c2 c3 = c1.toNat + c2.toNat + c3.toNat ∧ majorityCount c1 c2 c3 ≤ 3 ∧
    (majority c1 c2 c3 = true ↔ 2 ≤ majorityCount c1 c2 c3) ∧
    majority c1 c2 c3 = ((c1 && c2) || (c1 && c3) || (c2 && c3))

/-- R105: the whole selection table, with `m`, the predicate and the LOP4 words driven; P / S1 is 0x4 with PLAIN and 0xB with FULL. -/
def Obligations.ArbiterSelectionTable : Prop :=
  ∀ mode : MinorityMode,
    arbiterRow mode false false false = (0, false, [minorityWord mode, minorityWord mode, minorityWord mode]) ∧
    arbiterRow mode false false true = (1, false, [minorityWord mode, minorityWord mode, 0x0#4]) ∧
    arbiterRow mode false true false = (1, false, [minorityWord mode, 0x0#4, minorityWord mode]) ∧
    arbiterRow mode false true true = (2, true, [0x3#4, 0x3#4, 0x3#4]) ∧
    arbiterRow mode true false false = (1, false, [0x0#4, minorityWord mode, minorityWord mode]) ∧
    arbiterRow mode true false true = (2, true, [0x3#4, 0x3#4, 0x3#4]) ∧
    arbiterRow mode true true false = (2, true, [0x3#4, 0x3#4, 0x3#4]) ∧
    arbiterRow mode true true true = (3, true, [0x3#4, 0x3#4, 0x3#4])

/-- R106: who moves. All three when m >= 2 or m = 0; when m = 1 exactly the two whose clock bit is 0; so at least two always. -/
def Obligations.AtLeastTwoRegistersMove : Prop :=
  ∀ (mode : MinorityMode) (c1 c2 c3 : Bool),
    (arbiterOf mode c1 c2 c3).held.count true ≤ 1 ∧
    (2 ≤ majorityCount c1 c2 c3 ∨ majorityCount c1 c2 c3 = 0 → (arbiterOf mode c1 c2 c3).held = [false, false, false]) ∧
    (majorityCount c1 c2 c3 = 1 → (arbiterOf mode c1 c2 c3).held = [c1, c2, c3])

/-- R104: one majority cycle is the pseudocode on naturals, and it writes the three registers and nothing else. -/
def Obligations.MajorityCycleMatchesThePseudocode : Prop :=
  (∀ (c : Config) (r : Regs), MajCycleLeaves c r (majCycle c r)) ∧
  ∀ (s : State) (rest : List Input), s.seq = .idle → s.inputs = .majCycle :: rest →
    step s = .next { s with inputs := rest, regs := majCycle s.cfg s.regs }

/-- R107: the output bits a majority cycle leaves. -/
def Obligations.OutputBitsAfterMajorityCycle : Prop :=
  ∀ (s : State) (i : LeafId),
    (2 ≤ majorityCount (s.clkBitOf .r1) (s.clkBitOf .r2) (s.clkBitOf .r3) →
      (majCycle s.cfg s.regs).outBitOf i = decide (s.regs.val i % 2 = 1)) ∧
    (majorityCount (s.clkBitOf .r1) (s.clkBitOf .r2) (s.clkBitOf .r3) < 2 → s.cfg.minority = .plain →
      (majCycle s.cfg s.regs).outBitOf i = (s.clkBitOf i && s.regs.outBitOf i))

/-- R91 and R137's ground: all-zero registers are a fixed point of the majority cycle in both minority modes. -/
def Obligations.ZeroRegistersAreAFixedPoint : Prop :=
  ∀ c : Config, majCycle c { r1 := 0, r2 := 0, r3 := 0 } = { r1 := 0, r2 := 0, r3 := 0 }

/-! The leaf. -/

/-- R84: HOLD changes nothing. -/
def Obligations.HoldChangesNothing : Prop :=
  decodeLop4 0x0#4 = .ok .hold ∧ ∀ s : State, exec .hold s = .next s

/-- R85: CLEAR makes the selected leaf 0; the other leaves and everything else stay. -/
def Obligations.ClearZeroesTheLeaf : Prop :=
  decodeLop4 0x1#4 = .ok .clear ∧
  ∀ s : State, ∃ r : Regs, exec .clear s = .next { s with regs := r } ∧
    r.val s.leafSel = 0 ∧ ∀ j, j ≠ s.leafSel → r.val j = s.regs.val j

/-- R86: FEED d on naturals: `trunc_W((v ^ d) << 1)`, on the selected leaf; everything else stays. -/
def Obligations.FeedShiftsTheBitIn : Prop :=
  ∀ d : Bool, decodeLop4 (if d then 0xA#4 else 0x2#4) = .ok (.feed d) ∧
    ∀ s : State, ∃ r : Regs, exec (.feed d) s = .next { s with regs := r } ∧
      r.val s.leafSel = ((s.regs.val s.leafSel ^^^ d.toNat) <<< 1) % 2 ^ s.leafSel.width ∧
      ∀ j, j ≠ s.leafSel → r.val j = s.regs.val j

/-- R87: STEP f on naturals, the same for both values of f, on the selected leaf; everything else stays. -/
def Obligations.StepFeedsBackOnBitZero : Prop :=
  ∀ f : Bool, decodeLop4 (if f then 0xB#4 else 0x3#4) = .ok (.step f) ∧
    ∀ s : State, ∃ r : Regs, exec (.step f) s = .next { s with regs := r } ∧
      r.val s.leafSel =
        (if s.regs.val s.leafSel % 2 = 1
          then ((s.regs.val s.leafSel ^^^ tapVal s.cfg s.leafSel) >>> 1) ||| (1 <<< (s.leafSel.width - 1))
          else s.regs.val s.leafSel >>> 1) ∧
      r.outBitOf s.leafSel = decide (s.regs.val s.leafSel % 2 = 1) ∧
      ∀ j, j ≠ s.leafSel → r.val j = s.regs.val j

/-- R88: SHIFT is `v >> 1` whatever bit 0 is, on the selected leaf; everything else stays. -/
def Obligations.ShiftIsAPlainRightShift : Prop :=
  decodeLop4 0x4#4 = .ok .shift ∧
  ∀ s : State, ∃ r : Regs, exec .shift s = .next { s with regs := r } ∧
    r.val s.leafSel = s.regs.val s.leafSel >>> 1 ∧
    ∀ j, j ≠ s.leafSel → r.val j = s.regs.val j

/-- R82, R83: the two combinational outputs are the bits at CLK and at W-1. -/
def Obligations.ClockAndOutputBitsAreRead : Prop :=
  ∀ (s : State) (i : LeafId),
    s.clkBitOf i = decide (s.regs.val i / 2 ^ clkPos s.cfg i % 2 = 1) ∧
    s.regs.outBitOf i = decide (s.regs.val i / 2 ^ (i.width - 1) = 1)

/-- R90: the closed form of any sequence of FEEDs from 0, at every width: bit `j` is the bit fed `j` from the last, bit 0 is 0. -/
def Obligations.FeedsHaveAClosedForm : Prop :=
  ∀ (w : Nat) (ds : List Bool) (j : Nat), j < w →
    (feedMany ds (0#w)).getLsbD j =
      if h : 1 ≤ j ∧ j ≤ ds.length then ds[ds.length - j]'(by omega) else false

/-- R92: STEP is a bijection at every width and mask, with the inverse the rule gives, and the top bit of its result tells which
branch was taken. -/
def Obligations.StepIsABijection : Prop :=
  ∀ (w : Nat) (tap : BitVec w) (f : Bool) (v : BitVec w), 1 ≤ w →
    stepInverse tap (leafStep tap f v) = v ∧ leafStep tap f (stepInverse tap v) = v ∧
    (leafStep tap f v).getLsbD (w - 1) = v.getLsbD 0

/-- R93 and R88: SHIFT loses bit 0, and W shifts of any value leave 0. -/
def Obligations.ShiftsLoseBitsDownToZero : Prop :=
  ∀ (w : Nat) (v : BitVec w),
    leafShift (v ^^^ 1#w) = leafShift v ∧ loop (fun _ u => leafShift u) w v = 0#w

/-! Invariants. -/

/-- ERR is never 0b11 and BUSY is 0 between commands: every step keeps it, from every state that has it. -/
def Obligations.StepKeepsTheEngineInvariant : Prop :=
  ∀ s t : State, s.Inv → step s = .next t → t.Inv

/-- It holds at reset. -/
def Obligations.ResetHasTheEngineInvariant : Prop := State.reset.Inv

/-- R7, R23: no action changes the configuration, in the step or in a cycle. -/
def Obligations.NothingChangesTheConfiguration : Prop :=
  (∀ s t : State, step s = .next t → t.cfg = s.cfg) ∧ ∀ (p : Pins) (s : State), (cycle p s).cfg = s.cfg

/-- READY falls only with reset: any other action, from any state, leaves it up (R26). -/
def Obligations.ReadyFallsOnlyWithReset : Prop :=
  ∀ s t : State, step s = .next t → s.ready = true → s.inputs.head? ≠ some .reset → t.ready = true

/-! The sequencer and the handshake. -/

/-- One atomic step on a command word is acceptance and then the command run to completion by the sequencer.
One leaf update per cycle is the model's choice (log 10). -/
def Obligations.AtomicCommandIsTheSequencersRun : Prop :=
  ∀ (s : State) (w : BitVec 8) (rest : List Input),
    s.seq = .idle → s.inputs = .command w :: rest →
    step s = .next (finish (accept w { s with inputs := rest }))

/-- R179: INIT is 187 leaf cycles after acceptance, whatever the command port shows meanwhile; BUSY is 1 until the last of
them, and the result is the atomic INIT's. One leaf update per cycle is the model's choice (log 10). -/
def Obligations.InitTakesOneHundredEightySevenLeafCycles : Prop :=
  ∀ (s : State) (ps : List Pins), s.seq = .idle → ps.length = 187 → (∀ p ∈ ps, p.rst = false) →
    exec (.init 8) s = .next (runCycles ps (accept 0x41#8 s)) ∧
    ∀ k, k < 187 → (runCycles (ps.take k) (accept 0x41#8 s)).busy = true

/-- R174: cmd_ready is NOT BUSY; an idle engine accepts a valid word and samples it with KEY and FRAME; a busy one looks at
neither the word nor cmd_valid. -/
def Obligations.HandshakeAcceptsOnlyWhenReady : Prop :=
  ∀ (s : State) (p q : Pins), p.rst = false → q.rst = false →
    s.cmdReady = !s.busy ∧
    (s.seq = .idle → p.cmdValid = true →
      cycle p s = { s with seq := .accepted p.cmd s.keyPort s.framePort } ∧ (cycle p s).busy = true) ∧
    (s.busy = true → cycle p s = cycle q s)

/-- R175: READY, KS_VALID, ERR and KS change only in the cycle a command completes: a cycle that leaves BUSY at 1, or that
starts with an idle engine, leaves them as they were. -/
def Obligations.BusyCyclesShowThePreviousOutcome : Prop :=
  ∀ (s : State) (p : Pins), p.rst = false → (cycle p s).busy = true ∨ s.seq = .idle →
    (cycle p s).ready = s.ready ∧ (cycle p s).ksValid = s.ksValid ∧ (cycle p s).err = s.err ∧ (cycle p s).ks = s.ks

/-- R43: KEY and FRAME are sampled in the cycle of acceptance; a change of the pins after it has no effect on the command, and
NOP and GEN read neither port. -/
def Obligations.PortsAreSampledAtAcceptance : Prop :=
  ∀ (s : State) (k : BitVec 64) (f : BitVec 32),
    (∀ p : Pins, p.rst = false → p.cmdValid = true → s.seq = .idle →
      (cycle p s).seq = .accepted p.cmd s.keyPort s.framePort) ∧
    (∀ p : Pins, p.rst = false → s.busy = true →
      cycle p { s with keyPort := k, framePort := f } = { cycle p s with keyPort := k, framePort := f }) ∧
    (∃ t, exec .nop s = .next t ∧
      exec .nop { s with keyPort := k, framePort := f } = .next { t with keyPort := k, framePort := f }) ∧
    ∃ t, exec .gen s = .next t ∧
      exec .gen { s with keyPort := k, framePort := f } = .next { t with keyPort := k, framePort := f }

/-- R68: who drives which words: CLEAR at INIT's start, FEED words while loading, the arbiter's words in a majority cycle (0x4
only with PLAIN, 0xB only with FULL), HOLD between commands; never a reserved word. That INIT's CLEAR and GEN's majority cycle
are driven in the state just after acceptance is the model's choice (log 10), not R68's. -/
def Obligations.SequencerDrivesTheRuleWords : Prop :=
  ∀ s : State,
    (s.seq = .idle → (driven s).words = [0x0#4, 0x0#4, 0x0#4]) ∧
    (∀ k f, s.seq = .accepted 0x41#8 k f → (driven s).words = [0x1#4, 0x1#4, 0x1#4]) ∧
    (∀ i k f, s.seq = .load i k f →
      (driven s).l1.word = (if (if i.val < 64 then k.getLsbD i.val else f.getLsbD (i.val - 64)) then 0xA#4 else 0x2#4) ∧
      (driven s).l2 = (driven s).l1 ∧ (driven s).l3 = (driven s).l1) ∧
    ((∃ k, s.seq = .warmup k) ∨ (∃ k f, s.seq = .accepted 0x02#8 k f) →
      ∀ w ∈ (driven s).words, w = 0x3#4 ∨ w = 0x0#4 ∨ w = minorityWord s.cfg.minority) ∧
    ∀ w ∈ (driven s).words, w ∉ reservedLopWords

/-! The host's functions over commands. -/

/-- R132: generate(m + n) is generate(m) followed by generate(n), the bits joined; generate(0) changes nothing. -/
def Obligations.GenerateIsContinuous : Prop :=
  ∀ (s : State) (m n : Nat), s.seq = .idle →
    ∃ (a b : List Bool) (t u : State),
      generate m s = some (a, t) ∧ generate n t = some (b, u) ∧ generate (m + n) s = some (a ++ b, u) ∧
      a.length = m ∧ b.length = n ∧ generate 0 s = some ([], s)

/-- R131, R158: NOPs and failing commands between GENs, any number of them, change neither the keystream nor the registers. -/
def Obligations.StreamIgnoresNopsAndFailures : Prop :=
  ∀ (s : State) (ws : List (BitVec 8)), s.seq = .idle → (∀ w ∈ ws, w ≠ 0x41#8) →
    ∃ (bits : List Bool) (t u : State),
      hostRun ws s = some (bits, t) ∧ generate (ws.count 0x02#8) s = some (bits, u) ∧ t.regs = u.regs

/-- R135, R136, R129: INIT and n GENs give the same bits on two engines of one configuration whose FRAME ports agree on bits
21..0, whatever their KEY ports and their registers and status before. -/
def Obligations.KeystreamDependsOnFrameAlone : Prop :=
  ∀ (s s' : State) (n : Nat), s.seq = .idle → s'.seq = .idle → s.cfg = s'.cfg →
    (∀ k, k < 22 → s.framePort.getLsbD k = s'.framePort.getLsbD k) →
    ∃ (bits : List Bool) (t t' : State),
      hostRun (0x41#8 :: List.replicate n 0x02#8) s = some (bits, t) ∧
      hostRun (0x41#8 :: List.replicate n 0x02#8) s' = some (bits, t') ∧
      bits.length = n ∧ t.regs = t'.regs ∧ t.status = t'.status ∧ (1 ≤ n → t.hostView = t'.hostView)

/-- R137: with FRAME[21:0] = 0, INIT leaves zero registers after loading and after warm-up, and every GEN after it gives 0. -/
def Obligations.ZeroFrameGivesZeroKeystream : Prop :=
  ∀ (s : State) (n : Nat), s.seq = .idle → s.framePort.extractLsb' 0 22 = 0#22 →
    (phaseFrame s.framePort (phaseKey s.keyPort (phaseClear s))).regs = { r1 := 0, r2 := 0, r3 := 0 } ∧
    ∃ t u : State,
      exec (.init 8) s = .next t ∧ t.regs = { r1 := 0, r2 := 0, r3 := 0 } ∧
      hostRun (0x41#8 :: List.replicate n 0x02#8) s = some (List.replicate n false, u) ∧
      u.regs = { r1 := 0, r2 := 0, r3 := 0 }

/-- R138: with CFG-A, PLAIN and frame 0x134, INIT ends its warm-up at (0x190, 0, 0), where R1's clock bit alone is 1; every later
majority cycle leaves that state and every keystream bit is 0, whatever the key. About CFG-A only (R9). -/
def Obligations.KnownScenarioIsDegenerate : Prop :=
  ∀ (s : State) (n : Nat), s.seq = .idle → s.cfg = Config.cfgA .plain → s.framePort = 0x134#32 →
    ∃ t u : State,
      exec (.init 8) s = .next t ∧ t.regs = { r1 := 0x190#19, r2 := 0#22, r3 := 0#23 } ∧
      t.clkBitOf .r1 = true ∧ t.clkBitOf .r2 = false ∧ t.clkBitOf .r3 = false ∧
      majCycle t.cfg t.regs = t.regs ∧
      generate n t = some (List.replicate n false, u) ∧ u.regs = t.regs

/-- R51, R161: stepping one engine of several leaves every other as it was. -/
def Obligations.InstancesShareNothing : Prop :=
  ∀ (engines engines' : List State) (n : Nat), stepInstance n engines = some engines' →
    engines'.length = engines.length ∧ (∀ m, m ≠ n → engines'[m]? = engines[m]?) ∧
    ∃ s t, engines[n]? = some s ∧ step s = .next t ∧ engines'[n]? = some t

/-- R133: the host's init: a key of other than 8 bytes gives INVALID_ARGUMENT and leaves the engine as it was (but for ERR
where a command was issued); 8 bytes give the atomic INIT on the ports the host placed. The
FRAME port taken as the frame modulo 2^32, the ports kept for a wrong length and the code 0b01 reported for more than 15 bytes
are the model's choice (log 17), where R133 is silent. -/
def Obligations.HostInitRejectsWrongKeyLengths : Prop :=
  ∀ (key : List (BitVec 8)) (frame : Nat) (s : State), s.seq = .idle →
    (key.length ≠ 8 → key.length ≤ 15 → hostInit key frame s = some ({ s with err := 0b01#2 }, 0b01#2)) ∧
    (15 < key.length → hostInit key frame s = some (s, 0b01#2)) ∧
    (key.length = 8 → ∃ t : State, hostInit key frame s = some (t, 0b00#2) ∧
      exec (.init 8) { s with keyPort := packKey key, framePort := BitVec.ofNat 32 frame } = .next t)

/-- R41: byte b of an 8-byte key lies at KEY[8b+7 : 8b], bit j of it at KEY[8b+j]. -/
def Obligations.KeyBytesLieInAscendingOrder : Prop :=
  ∀ (key : List (BitVec 8)), key.length = 8 → ∀ b j, b < 8 → j < 8 →
    (packKey key).getLsbD (8 * b + j) = (key.getD b 0#8).getLsbD j ∧
    keyBit (packKey key) (8 * b + j) = (key.getD b 0#8).getLsbD j

/-- R134: pack32 keeps the last 32 bits, the last at bit 0. -/
def Obligations.Pack32KeepsTheLastBits : Prop :=
  ∀ (bits : List Bool) (j : Nat), j < 32 → (pack32 bits).getLsbD j = bits.reverse.getD j false

/-- R8: an illegal configuration is refused, and a legal one is built with the numbers given. -/
def Obligations.IllegalConfigurationIsRefused : Prop :=
  ∀ n : ConfigNumbers,
    ((n.tap1 < 2 ^ 19 ∧ n.tap2 < 2 ^ 22 ∧ n.tap3 < 2 ^ 23 ∧ n.clk1 ≤ 18 ∧ n.clk2 ≤ 21 ∧ n.clk3 ≤ 22 ∧ 22 ≤ n.frameW ∧
      1 ≤ n.initLatency ∧ 1 ≤ n.genLatency) →
      ∃ c, buildConfig n = some c ∧ tapVal c .r1 = n.tap1 ∧ tapVal c .r2 = n.tap2 ∧ tapVal c .r3 = n.tap3 ∧
        clkPos c .r1 = n.clk1 ∧ clkPos c .r2 = n.clk2 ∧ clkPos c .r3 = n.clk3 ∧ c.minority = n.minority ∧
        c.frameW = n.frameW ∧ (c.initLatency : Nat) = n.initLatency ∧ (c.genLatency : Nat) = n.genLatency) ∧
    (¬(n.tap1 < 2 ^ 19 ∧ n.tap2 < 2 ^ 22 ∧ n.tap3 < 2 ^ 23 ∧ n.clk1 ≤ 18 ∧ n.clk2 ≤ 21 ∧ n.clk3 ≤ 22 ∧ 22 ≤ n.frameW ∧
      1 ≤ n.initLatency ∧ 1 ≤ n.genLatency) → buildConfig n = none)

/-- R69: `INIT k` assembles to `(k << 3) | 0x01` for k in 0..15 and is refused otherwise. -/
def Obligations.AssemblerAcceptsInitUpToFifteen : Prop :=
  ∀ k : Nat,
    (k ≤ 15 → asmCmd (.init k) = some (BitVec.ofNat 8 ((k <<< 3) ||| 0x01))) ∧
    (15 < k → asmCmd (.init k) = none)
end

