-- ==== Sys2Proof/Laws/Driver.lean ====
section
/-! SUPPORT. What the host's functions can do: one bit for each GEN, and the keystream undoes itself. -/

namespace Sys2Proof.Machine

/-- A run reads exactly one bit for each GEN word. -/
theorem hostRun_length {ws : List (BitVec 8)} {s t : State} {bits : List Bool} (h : hostRun ws s = some (bits, t)) :
    bits.length = ws.count genWord := by
  induction ws generalizing s t bits with
  | nil => cases h; rfl
  | cons w ws ih =>
    simp only [hostRun] at h
    split at h <;> try contradiction
    split at h <;> try contradiction
    next hrun =>
      cases h
      split <;> simp_all [ih hrun]

theorem xor_stream_twice : ∀ (text bits : List Bool), text.length = bits.length →
    List.zipWith xor (List.zipWith xor text bits) bits = text
  | [], [], _ => rfl
  | a :: text, b :: bits, h => by simp [xor_stream_twice text bits (by simpa using h)]

/-- R15, plaintext to ciphertext or vice versa: from one state, enciphering a cipher text gives the plain text back. -/
theorem hostCipher_twice {text cipher : List Bool} {s t : State} (h : hostCipher text s = some (cipher, t)) :
    hostCipher cipher s = some (text, t) := by
  unfold hostCipher at h
  split at h
  · next bits u hgen =>
    cases h
    have hlen : bits.length = text.length := by simpa using hostRun_length hgen
    simp [hostCipher, hlen, hgen, xor_stream_twice text bits hlen.symm]
  · contradiction

end Sys2Proof.Machine
end

