-- ==== Sys2Proof/Laws/State.lean ====
section
/-! SUPPORT. What each update of the state leaves in each field. -/

namespace Sys2Proof.Machine

variable (s : State)

@[simp] theorem State.setRegs_regs (r : Regs) : (s.setRegs r).regs = r := rfl
@[simp] theorem State.setRegs_ready (r : Regs) : (s.setRegs r).ready = s.ready := rfl
@[simp] theorem State.setRegs_ksValid (r : Regs) : (s.setRegs r).ksValid = s.ksValid := rfl
@[simp] theorem State.setRegs_err (r : Regs) : (s.setRegs r).err = s.err := rfl
@[simp] theorem State.setRegs_ks (r : Regs) : (s.setRegs r).ks = s.ks := rfl
@[simp] theorem State.setRegs_seq (r : Regs) : (s.setRegs r).seq = s.seq := rfl
@[simp] theorem State.setRegs_cfg (r : Regs) : (s.setRegs r).cfg = s.cfg := rfl
@[simp] theorem State.setRegs_keyPort (r : Regs) : (s.setRegs r).keyPort = s.keyPort := rfl
@[simp] theorem State.setRegs_framePort (r : Regs) : (s.setRegs r).framePort = s.framePort := rfl
@[simp] theorem State.setRegs_leafSel (r : Regs) : (s.setRegs r).leafSel = s.leafSel := rfl
@[simp] theorem State.setRegs_inputs (r : Regs) : (s.setRegs r).inputs = s.inputs := rfl

@[simp] theorem State.setErr_regs (e : BitVec 2) : (s.setErr e).regs = s.regs := rfl
@[simp] theorem State.setErr_ready (e : BitVec 2) : (s.setErr e).ready = s.ready := rfl
@[simp] theorem State.setErr_ksValid (e : BitVec 2) : (s.setErr e).ksValid = s.ksValid := rfl
@[simp] theorem State.setErr_err (e : BitVec 2) : (s.setErr e).err = e := rfl
@[simp] theorem State.setErr_ks (e : BitVec 2) : (s.setErr e).ks = s.ks := rfl
@[simp] theorem State.setErr_seq (e : BitVec 2) : (s.setErr e).seq = s.seq := rfl
@[simp] theorem State.setErr_cfg (e : BitVec 2) : (s.setErr e).cfg = s.cfg := rfl
@[simp] theorem State.setErr_keyPort (e : BitVec 2) : (s.setErr e).keyPort = s.keyPort := rfl
@[simp] theorem State.setErr_framePort (e : BitVec 2) : (s.setErr e).framePort = s.framePort := rfl
@[simp] theorem State.setErr_leafSel (e : BitVec 2) : (s.setErr e).leafSel = s.leafSel := rfl
@[simp] theorem State.setErr_inputs (e : BitVec 2) : (s.setErr e).inputs = s.inputs := rfl

@[simp] theorem State.setSeq_regs (q : Sequencer) : (s.setSeq q).regs = s.regs := rfl
@[simp] theorem State.setSeq_ready (q : Sequencer) : (s.setSeq q).ready = s.ready := rfl
@[simp] theorem State.setSeq_ksValid (q : Sequencer) : (s.setSeq q).ksValid = s.ksValid := rfl
@[simp] theorem State.setSeq_err (q : Sequencer) : (s.setSeq q).err = s.err := rfl
@[simp] theorem State.setSeq_ks (q : Sequencer) : (s.setSeq q).ks = s.ks := rfl
@[simp] theorem State.setSeq_seq (q : Sequencer) : (s.setSeq q).seq = q := rfl
@[simp] theorem State.setSeq_cfg (q : Sequencer) : (s.setSeq q).cfg = s.cfg := rfl
@[simp] theorem State.setSeq_keyPort (q : Sequencer) : (s.setSeq q).keyPort = s.keyPort := rfl
@[simp] theorem State.setSeq_framePort (q : Sequencer) : (s.setSeq q).framePort = s.framePort := rfl
@[simp] theorem State.setSeq_leafSel (q : Sequencer) : (s.setSeq q).leafSel = s.leafSel := rfl
@[simp] theorem State.setSeq_inputs (q : Sequencer) : (s.setSeq q).inputs = s.inputs := rfl

@[simp] theorem State.setPorts_regs (k : BitVec 64) (f : BitVec 32) : (s.setPorts k f).regs = s.regs := rfl
@[simp] theorem State.setPorts_ready (k : BitVec 64) (f : BitVec 32) : (s.setPorts k f).ready = s.ready := rfl
@[simp] theorem State.setPorts_ksValid (k : BitVec 64) (f : BitVec 32) : (s.setPorts k f).ksValid = s.ksValid := rfl
@[simp] theorem State.setPorts_err (k : BitVec 64) (f : BitVec 32) : (s.setPorts k f).err = s.err := rfl
@[simp] theorem State.setPorts_ks (k : BitVec 64) (f : BitVec 32) : (s.setPorts k f).ks = s.ks := rfl
@[simp] theorem State.setPorts_seq (k : BitVec 64) (f : BitVec 32) : (s.setPorts k f).seq = s.seq := rfl
@[simp] theorem State.setPorts_cfg (k : BitVec 64) (f : BitVec 32) : (s.setPorts k f).cfg = s.cfg := rfl
@[simp] theorem State.setPorts_keyPort (k : BitVec 64) (f : BitVec 32) : (s.setPorts k f).keyPort = k := rfl
@[simp] theorem State.setPorts_framePort (k : BitVec 64) (f : BitVec 32) : (s.setPorts k f).framePort = f := rfl
@[simp] theorem State.setPorts_leafSel (k : BitVec 64) (f : BitVec 32) : (s.setPorts k f).leafSel = s.leafSel := rfl
@[simp] theorem State.setPorts_inputs (k : BitVec 64) (f : BitVec 32) : (s.setPorts k f).inputs = s.inputs := rfl

@[simp] theorem State.setLeafSel_regs (id : LeafId) : (s.setLeafSel id).regs = s.regs := rfl
@[simp] theorem State.setLeafSel_ready (id : LeafId) : (s.setLeafSel id).ready = s.ready := rfl
@[simp] theorem State.setLeafSel_ksValid (id : LeafId) : (s.setLeafSel id).ksValid = s.ksValid := rfl
@[simp] theorem State.setLeafSel_err (id : LeafId) : (s.setLeafSel id).err = s.err := rfl
@[simp] theorem State.setLeafSel_ks (id : LeafId) : (s.setLeafSel id).ks = s.ks := rfl
@[simp] theorem State.setLeafSel_seq (id : LeafId) : (s.setLeafSel id).seq = s.seq := rfl
@[simp] theorem State.setLeafSel_cfg (id : LeafId) : (s.setLeafSel id).cfg = s.cfg := rfl
@[simp] theorem State.setLeafSel_keyPort (id : LeafId) : (s.setLeafSel id).keyPort = s.keyPort := rfl
@[simp] theorem State.setLeafSel_framePort (id : LeafId) : (s.setLeafSel id).framePort = s.framePort := rfl
@[simp] theorem State.setLeafSel_leafSel (id : LeafId) : (s.setLeafSel id).leafSel = id := rfl
@[simp] theorem State.setLeafSel_inputs (id : LeafId) : (s.setLeafSel id).inputs = s.inputs := rfl

@[simp] theorem State.setInputs_regs (l : List Input) : (s.setInputs l).regs = s.regs := rfl
@[simp] theorem State.setInputs_ready (l : List Input) : (s.setInputs l).ready = s.ready := rfl
@[simp] theorem State.setInputs_ksValid (l : List Input) : (s.setInputs l).ksValid = s.ksValid := rfl
@[simp] theorem State.setInputs_err (l : List Input) : (s.setInputs l).err = s.err := rfl
@[simp] theorem State.setInputs_ks (l : List Input) : (s.setInputs l).ks = s.ks := rfl
@[simp] theorem State.setInputs_seq (l : List Input) : (s.setInputs l).seq = s.seq := rfl
@[simp] theorem State.setInputs_cfg (l : List Input) : (s.setInputs l).cfg = s.cfg := rfl
@[simp] theorem State.setInputs_keyPort (l : List Input) : (s.setInputs l).keyPort = s.keyPort := rfl
@[simp] theorem State.setInputs_framePort (l : List Input) : (s.setInputs l).framePort = s.framePort := rfl
@[simp] theorem State.setInputs_leafSel (l : List Input) : (s.setInputs l).leafSel = s.leafSel := rfl
@[simp] theorem State.setInputs_inputs (l : List Input) : (s.setInputs l).inputs = l := rfl

@[simp] theorem State.markInitDone_regs : (s.markInitDone).regs = s.regs := rfl
@[simp] theorem State.markInitDone_ready : (s.markInitDone).ready = true := rfl
@[simp] theorem State.markInitDone_ksValid : (s.markInitDone).ksValid = false := rfl
@[simp] theorem State.markInitDone_err : (s.markInitDone).err = 0#2 := rfl
@[simp] theorem State.markInitDone_ks : (s.markInitDone).ks = s.ks := rfl
@[simp] theorem State.markInitDone_seq : (s.markInitDone).seq = s.seq := rfl
@[simp] theorem State.markInitDone_cfg : (s.markInitDone).cfg = s.cfg := rfl
@[simp] theorem State.markInitDone_keyPort : (s.markInitDone).keyPort = s.keyPort := rfl
@[simp] theorem State.markInitDone_framePort : (s.markInitDone).framePort = s.framePort := rfl
@[simp] theorem State.markInitDone_leafSel : (s.markInitDone).leafSel = s.leafSel := rfl
@[simp] theorem State.markInitDone_inputs : (s.markInitDone).inputs = s.inputs := rfl

@[simp] theorem State.latchKs_regs (z : Bool) : (s.latchKs z).regs = s.regs := rfl
@[simp] theorem State.latchKs_ready (z : Bool) : (s.latchKs z).ready = s.ready := rfl
@[simp] theorem State.latchKs_ksValid (z : Bool) : (s.latchKs z).ksValid = true := rfl
@[simp] theorem State.latchKs_err (z : Bool) : (s.latchKs z).err = 0#2 := rfl
@[simp] theorem State.latchKs_ks (z : Bool) : (s.latchKs z).ks = z := rfl
@[simp] theorem State.latchKs_seq (z : Bool) : (s.latchKs z).seq = s.seq := rfl
@[simp] theorem State.latchKs_cfg (z : Bool) : (s.latchKs z).cfg = s.cfg := rfl
@[simp] theorem State.latchKs_keyPort (z : Bool) : (s.latchKs z).keyPort = s.keyPort := rfl
@[simp] theorem State.latchKs_framePort (z : Bool) : (s.latchKs z).framePort = s.framePort := rfl
@[simp] theorem State.latchKs_leafSel (z : Bool) : (s.latchKs z).leafSel = s.leafSel := rfl
@[simp] theorem State.latchKs_inputs (z : Bool) : (s.latchKs z).inputs = s.inputs := rfl

/-! The composite updates are the plain ones. -/

theorem raiseError_eq (c : BitVec 2) : raiseError c s = s.setErr c := rfl
theorem State.leafCycle_eq (l : Lops) : s.leafCycle l = s.setRegs (applyLops s.cfg l s.regs) := rfl
theorem State.setRegs_self : s.setRegs s.regs = s := rfl
@[simp] theorem State.setRegs_setRegs (r r' : Regs) : (s.setRegs r).setRegs r' = s.setRegs r' := rfl
@[simp] theorem State.setSeq_setSeq (q q' : Sequencer) : (s.setSeq q).setSeq q' = s.setSeq q' := rfl
theorem State.setSeq_setRegs (q : Sequencer) (r : Regs) : (s.setRegs r).setSeq q = (s.setSeq q).setRegs r := rfl

@[simp] theorem resetEngine_regs : (resetEngine s).regs = { r1 := 0, r2 := 0, r3 := 0 } := rfl
@[simp] theorem resetEngine_ready : (resetEngine s).ready = false := rfl
@[simp] theorem resetEngine_ksValid : (resetEngine s).ksValid = false := rfl
@[simp] theorem resetEngine_err : (resetEngine s).err = 0#2 := rfl
@[simp] theorem resetEngine_ks : (resetEngine s).ks = false := rfl
@[simp] theorem resetEngine_seq : (resetEngine s).seq = .idle := rfl
@[simp] theorem resetEngine_cfg : (resetEngine s).cfg = s.cfg := rfl
@[simp] theorem resetEngine_keyPort : (resetEngine s).keyPort = s.keyPort := rfl
@[simp] theorem resetEngine_framePort : (resetEngine s).framePort = s.framePort := rfl
@[simp] theorem resetEngine_leafSel : (resetEngine s).leafSel = s.leafSel := rfl
@[simp] theorem resetEngine_inputs : (resetEngine s).inputs = s.inputs := rfl

@[simp] theorem State.leafCycle_ready (l : Lops) : (s.leafCycle l).ready = s.ready := rfl
@[simp] theorem State.leafCycle_ksValid (l : Lops) : (s.leafCycle l).ksValid = s.ksValid := rfl
@[simp] theorem State.leafCycle_err (l : Lops) : (s.leafCycle l).err = s.err := rfl
@[simp] theorem State.leafCycle_ks (l : Lops) : (s.leafCycle l).ks = s.ks := rfl
@[simp] theorem State.leafCycle_seq (l : Lops) : (s.leafCycle l).seq = s.seq := rfl
@[simp] theorem State.leafCycle_cfg (l : Lops) : (s.leafCycle l).cfg = s.cfg := rfl
@[simp] theorem State.leafCycle_keyPort (l : Lops) : (s.leafCycle l).keyPort = s.keyPort := rfl
@[simp] theorem State.leafCycle_framePort (l : Lops) : (s.leafCycle l).framePort = s.framePort := rfl
@[simp] theorem State.leafCycle_leafSel (l : Lops) : (s.leafCycle l).leafSel = s.leafSel := rfl
@[simp] theorem State.leafCycle_inputs (l : Lops) : (s.leafCycle l).inputs = s.inputs := rfl
@[simp] theorem State.leafCycle_regs (l : Lops) : (s.leafCycle l).regs = applyLops s.cfg l s.regs := rfl

end Sys2Proof.Machine
end

