-- ==== Sys2Proof/Laws/Ops.lean ====
section
/-! SUPPORT. Loops, the bits each leaf operation leaves, and INIT's phases as loops over the three registers alone. -/

namespace Sys2Proof.Machine

/-! Loops. -/

@[simp] theorem loop_zero {α : Type} (body : Nat → α → α) (a : α) : loop body 0 a = a := rfl

theorem loop_succ {α : Type} (body : Nat → α → α) (n : Nat) (a : α) :
    loop body (n + 1) a = body n (loop body n a) := rfl

/-- A property every iteration keeps holds after the loop. -/
theorem loop_keeps {α : Type} {body : Nat → α → α} (P : α → Prop) (h : ∀ k a, P a → P (body k a))
    (n : Nat) (a : α) (ha : P a) : P (loop body n a) := by
  induction n with
  | zero => exact ha
  | succ n ih => exact h n _ ih

/-- What no iteration changes, the loop does not change. -/
theorem loop_frame {α β : Type} {body : Nat → α → α} (f : α → β) (h : ∀ k a, f (body k a) = f a)
    (n : Nat) (a : α) : f (loop body n a) = f a :=
  loop_keeps (fun b => f b = f a) (fun k b hb => (h k b).trans hb) n a rfl

/-- A loop whose iterations all do the same can start with one more. -/
theorem loop_const_succ {α : Type} (g : α → α) (n : Nat) (a : α) :
    loop (fun _ => g) (n + 1) a = loop (fun _ => g) n (g a) := by
  induction n with
  | zero => rfl
  | succ n ih => rw [loop_succ, ih]; rfl

/-- A loop over states that works on one part of them is that part's loop. -/
theorem loop_setRegs {body : Nat → State → State} {g : Nat → Config → Regs → Regs}
    (h : ∀ k s, body k s = s.setRegs (g k s.cfg s.regs)) (n : Nat) (s : State) :
    loop body n s = s.setRegs (loop (fun k => g k s.cfg) n s.regs) := by
  induction n with
  | zero => rfl
  | succ n ih => rw [loop_succ, ih, h]; rfl

/-! The bits each operation leaves. -/

variable {w : Nat} (v tap : BitVec w)

theorem leafFeed_getLsbD (d : Bool) (j : Nat) (hj : j < w) :
    (leafFeed d v).getLsbD j = if j = 0 then false else if j = 1 then xor (v.getLsbD 0) d else v.getLsbD (j - 1) := by
  rcases j with _ | _ | j
  · simp [leafFeed, hj]
  · simp [leafFeed, hj, show 0 < w by omega]
  · have hj' : j + 1 < w := by omega
    simp [leafFeed, hj, hj']

theorem leafShift_getLsbD (j : Nat) : (leafShift v).getLsbD j = v.getLsbD (j + 1) := by
  simp [leafShift, Nat.add_comm]

theorem leafStep_of_bit0_clear (f : Bool) (h : v.getLsbD 0 = false) : leafStep tap f v = leafShift v := by
  simp [leafStep, leafShift, h]

theorem leafStep_getLsbD_of_bit0_set (f : Bool) (h : v.getLsbD 0 = true) (j : Nat) (hj : j < w) :
    (leafStep tap f v).getLsbD j = (decide (j = w - 1) || xor (v.getLsbD (j + 1)) (tap.getLsbD (j + 1))) := by
  have : (1#w <<< (w - 1)).getLsbD j = decide (j = w - 1) := by
    simp only [BitVec.getLsbD_shiftLeft, BitVec.getLsbD_one, hj]
    by_cases hw : j = w - 1
    · subst hw; simp; omega
    · simp [hw]; omega
  simp [leafStep, h, this, Bool.or_comm, Nat.add_comm]

theorem leafStep_force (f g : Bool) : leafStep tap f v = leafStep tap g v := rfl

/-! What the operations of a leaf do together. -/

@[simp] theorem applyLops_all_hold (c : Config) (r : Regs) : applyLops c (Lops.all .hold) r = r := rfl

/-- The operation on one leaf leaves the other two. -/
theorem applyLops_only_val (c : Config) (id j : LeafId) (op : Lop) (r : Regs) (h : j ≠ id) :
    (applyLops c (Lops.only id op) r).val j = r.val j := by
  cases id <;> cases j <;> first | rfl | exact absurd rfl h

/-! The phases of INIT change the registers alone. -/

theorem feedAll_eq (d : Bool) (s : State) : feedAll d s = s.setRegs (applyLops s.cfg (Lops.all (.feed d)) s.regs) := rfl

/-- R15: with a majority every leaf steps, whatever its own clock bit. -/
@[simp] theorem selectLop_of_majority (mode : MinorityMode) (c : Bool) : selectLop mode true c = .step false := rfl

theorem majStep_eq (s : State) : majStep s = s.setRegs (majCycle s.cfg s.regs) := rfl

theorem phaseKey_eq (key : BitVec 64) (s : State) : phaseKey key s =
    s.setRegs (loop (fun k r => applyLops s.cfg (Lops.all (.feed (keyBit key k))) r) keyBits s.regs) :=
  loop_setRegs (g := fun k c r => applyLops c (Lops.all (.feed (keyBit key k))) r) (fun _ _ => rfl) keyBits s

theorem phaseFrame_eq (frame : BitVec 32) (s : State) : phaseFrame frame s =
    s.setRegs (loop (fun k r => applyLops s.cfg (Lops.all (.feed (frameBit frame k))) r) frameBits s.regs) :=
  loop_setRegs (g := fun k c r => applyLops c (Lops.all (.feed (frameBit frame k))) r) (fun _ _ => rfl) frameBits s

theorem phaseWarmup_eq (s : State) : phaseWarmup s =
    s.setRegs (loop (fun _ r => majCycle s.cfg r) warmupCycles s.regs) :=
  loop_setRegs (g := fun _ c r => majCycle c r) (fun _ s => majStep_eq s) warmupCycles s

end Sys2Proof.Machine
end

