-- ==== Sys2Proof/Laws/PerInstr.lean ====
section
/-! SUPPORT. Per-instruction facts about the syntax: every encoded word carries its opcode-table row's fixed bits. -/

namespace Sys2Proof.Laws

/-- The row of spec/opcode_table.json: how many bits, the mask and the match. -/
def TableRow.row : Instr → Nat × Nat × Nat
  | .nop => (8, 0xFF, 0x00)
  | .init _ => (8, 0x87, 0x01)
  | .gen => (8, 0xFF, 0x02)
  | .hold => (4, 0xF, 0x0)
  | .clear => (4, 0xF, 0x1)
  | .feed _ => (4, 0x7, 0x2)
  | .step _ => (4, 0x7, 0x3)
  | .shift => (4, 0xF, 0x4)

/-- The word of a well-formed instruction has its row's width, and its bits under the row's mask are the row's match. -/
def TableRow.Statement (i : Instr) : Prop :=
  i.wf = true → (encode i).width = (TableRow.row i).1 ∧ (encode i).toNat &&& (TableRow.row i).2.1 = (TableRow.row i).2.2

theorem TableRow.nop : TableRow.Statement .nop := by unfold TableRow.Statement; decide

theorem TableRow.init (klen : Nat) : TableRow.Statement (.init klen) := by
  intro h
  have hk : klen ≤ 15 := of_decide_eq_true h
  interval_cases klen <;> decide

theorem TableRow.gen : TableRow.Statement .gen := by unfold TableRow.Statement; decide
theorem TableRow.hold : TableRow.Statement .hold := by unfold TableRow.Statement; decide
theorem TableRow.clear : TableRow.Statement .clear := by unfold TableRow.Statement; decide
theorem TableRow.feed (d : Bool) : TableRow.Statement (.feed d) := by unfold TableRow.Statement; revert d; decide
theorem TableRow.step (f : Bool) : TableRow.Statement (.step f) := by unfold TableRow.Statement; revert f; decide
theorem TableRow.shift : TableRow.Statement .shift := by unfold TableRow.Statement; decide

end Sys2Proof.Laws
end

