-- ==== Sys2Proof/Laws/Step.lean ====
section
/-! SUPPORT. What `exec`, the sequencer and the step can do, said once. -/

namespace Sys2Proof.Machine

/-! The busy flag. -/

theorem State.busy_iff (s : State) : s.busy = true ↔ s.seq ≠ .idle := by
  unfold State.busy; cases s.seq <;> simp

theorem State.busy_eq_false_iff (s : State) : s.busy = false ↔ s.seq = .idle := by
  unfold State.busy; cases s.seq <;> simp

/-! The decoder. -/

/-- Every command word is NOP, GEN, an INIT whose KLEN fits its field, or illegal. -/
theorem decodeCmd8_cases (w : BitVec 8) :
    decodeCmd8 w = .ok .nop ∨ decodeCmd8 w = .ok .gen ∨ decodeCmd8 w = .ok (.init (cmdKlen w).toNat) ∨
      decodeCmd8 w = .error .illegalCommand := by
  unfold decodeCmd8; split_ifs <;> simp

/-- The only word that starts INIT's phases. -/
theorem startsInit_iff : ∀ w : BitVec 8, startsInit w = true ↔ w = 0x41#8 := by decide

/-! `exec`: what each instruction answers. -/

theorem exec_nop (s : State) : exec .nop s = .next (s.setErr errOk) := rfl
theorem exec_init (klen : Nat) (s : State) : exec (.init klen) s =
    if klenOk klen then .next (initEffect s.keyPort s.framePort s) else .next (s.setErr errInvalidArgument) := rfl
theorem exec_gen (s : State) : exec .gen s = .next (genEffect s) := rfl
theorem exec_hold (s : State) : exec .hold s = .next (s.applyToLeaf .hold) := rfl
theorem exec_clear (s : State) : exec .clear s = .next (s.applyToLeaf .clear) := rfl
theorem exec_feed (d : Bool) (s : State) : exec (.feed d) s = .next (s.applyToLeaf (.feed d)) := rfl
theorem exec_step (f : Bool) (s : State) : exec (.step f) s = .next (s.applyToLeaf (.step f)) := rfl
theorem exec_shift (s : State) : exec .shift s = .next (s.applyToLeaf .shift) := rfl

/-- Every instruction changes registers and status fields only. -/
theorem exec_cases (i : Instr) (s : State) :
    ∃ r rd kv e k, exec i s =
      .next { s with regs := r, ready := rd, ksValid := kv, err := e, ks := k } ∧
      (s.ready = true → rd = true) ∧ (s.err ≠ 0b11#2 → e ≠ 0b11#2) := by
  cases i with
  | init klen =>
    rw [exec_init]; split
    · simp only [initEffect, phaseKey_eq, phaseFrame_eq, phaseWarmup_eq]
      exact ⟨_, _, _, _, _, rfl, fun _ => rfl, fun _ => by decide⟩
    · exact ⟨_, _, _, _, _, rfl, id, fun _ => by decide⟩
  | nop => exact ⟨_, _, _, _, _, rfl, id, fun _ => by decide⟩
  | gen => exact ⟨_, _, _, _, _, rfl, id, fun _ => by decide⟩
  | hold => exact ⟨_, _, _, _, _, rfl, id, id⟩
  | clear => exact ⟨_, _, _, _, _, rfl, id, id⟩
  | feed d => exact ⟨_, _, _, _, _, rfl, id, id⟩
  | step f => exact ⟨_, _, _, _, _, rfl, id, id⟩
  | shift => exact ⟨_, _, _, _, _, rfl, id, id⟩

/-! The sequencer. -/

/-- One leaf cycle changes registers, status fields and the sequencer only. -/
theorem advance_cases (s : State) :
    ∃ r rd kv e k q, advance s =
      { s with regs := r, ready := rd, ksValid := kv, err := e, ks := k, seq := q } ∧
      (s.ready = true → rd = true) ∧ (s.err ≠ 0b11#2 → e ≠ 0b11#2) := by
  unfold advance
  split
  · exact ⟨_, _, _, _, _, _, rfl, id, id⟩
  · split
    · exact ⟨_, _, _, _, _, _, rfl, id, id⟩
    · rename_i w key frame _ _
      rcases decodeCmd8_cases w with h | h | h | h <;> simp only [completeAccepted, h] <;>
        exact ⟨_, _, _, _, _, _, rfl, id, fun _ (h3 : _ = 0b11#2) => by cases h3⟩
  · exact ⟨_, _, _, _, _, _, rfl, id, id⟩
  · split
    · exact ⟨_, _, _, _, _, _, rfl, id, id⟩
    · exact ⟨_, _, _, _, _, _, rfl, by simp, by simp⟩

/-- An idle engine's leaf cycle changes nothing: HOLD in every leaf. -/
theorem advance_of_idle (s : State) (h : s.seq = .idle) : advance s = s := by
  simp [advance, driven, h, State.leafCycle_eq, State.setRegs_self]

/-- A busy engine's leaf cycle leaves one cycle less to do. -/
theorem cyclesLeft_advance (s : State) (h : s.seq ≠ .idle) :
    cyclesLeft s.seq = cyclesLeft (advance s).seq + 1 := by
  unfold advance
  split
  · rename_i hs; exact absurd hs h
  · rename_i w k f hs
    by_cases hw : startsInit w = true <;> simp [hs, hw, cyclesLeft]
  · rename_i i k f hs
    have := i.isLt
    by_cases hi : i.val + 1 < 86 <;> simp [hs, hi, nextLoad, cyclesLeft] <;> omega
  · rename_i k hs
    have := k.isLt
    by_cases hk : k.val + 1 < 100 <;> simp [hs, hk, cyclesLeft] <;> omega

theorem cyclesLeft_eq_zero_iff (q : Sequencer) : cyclesLeft q = 0 ↔ q = .idle := by
  cases q with
  | idle => simp [cyclesLeft]
  | accepted w k f => by_cases h : startsInit w = true <;> simp [cyclesLeft, h]
  | load i k f => have := i.isLt; simp [cyclesLeft]; omega
  | warmup k => have := k.isLt; simp [cyclesLeft]; omega

theorem finish_of_idle (s : State) (h : s.seq = .idle) : finish s = s := by simp [finish, h, cyclesLeft]

/-- Finishing a command in progress is its next leaf cycle and then finishing. -/
theorem finish_advance (s : State) (h : s.seq ≠ .idle) : finish s = finish (advance s) := by
  rw [finish, cyclesLeft_advance s h, loop_const_succ]; rfl

/-- After finishing, the engine is idle, and registers, status fields and the sequencer alone have changed. -/
theorem finish_cases (s : State) :
    ∃ r rd kv e k, finish s =
      { s with regs := r, ready := rd, ksValid := kv, err := e, ks := k, seq := .idle } ∧
      (s.ready = true → rd = true) ∧ (s.err ≠ 0b11#2 → e ≠ 0b11#2) := by
  generalize hn : cyclesLeft s.seq = n
  induction n generalizing s with
  | zero =>
    have hs := (cyclesLeft_eq_zero_iff _).1 hn
    rw [finish_of_idle s hs]
    exact ⟨_, _, _, _, _, by rw [← hs], id, id⟩
  | succ n ih =>
    have hs : s.seq ≠ .idle := fun h => by simp [h, cyclesLeft] at hn
    rw [finish_advance s hs]
    obtain ⟨r, rd, kv, e, k, h, h1, h2⟩ := ih (advance s) (by have := cyclesLeft_advance s hs; omega)
    obtain ⟨r', rd', kv', e', k', q', h', h1', h2'⟩ := advance_cases s
    refine ⟨r, rd, kv, e, k, ?_, ?_, ?_⟩
    · rw [h, h']
    · rw [h'] at h1; exact fun hr => h1 (h1' hr)
    · rw [h'] at h2; exact fun he => h2 (h2' he)

/-! The step. -/

/-- Everything a step can do: take the oldest action, finish a command in progress, or idle. -/
theorem step_cases (s : State) :
    (s.inputs = [] ∧ step s = .next (finish s)) ∨
    (∃ a rest, s.inputs = a :: rest ∧ s.busy = true ∧ takenWhileBusy a = false ∧ step s = .next (finish s)) ∨
    (∃ a rest, s.inputs = a :: rest ∧ (s.busy = false ∨ takenWhileBusy a = true) ∧
      step s = takeInput a (s.setInputs rest)) := by
  unfold step takeNext
  cases hs : s.inputs with
  | nil => simp
  | cons a rest =>
    cases hb : s.busy <;> cases ht : takenWhileBusy a <;> simp [ht]

/-- An idle engine takes its oldest action. -/
theorem step_of_idle (s : State) (a : Input) (rest : List Input) (h : s.seq = .idle) (hi : s.inputs = a :: rest) :
    step s = takeInput a (s.setInputs rest) := by
  have : s.busy = false := (State.busy_eq_false_iff s).2 h
  simp [step, takeNext, hi, this]

/-- A command word that is no command ends with ILLEGAL_COMMAND; any other runs. -/
theorem runCommand_cases (w : BitVec 8) (s : State) :
    (∃ i, decodeCmd8 w = .ok i ∧ runCommand w s = exec i s) ∨
    (decodeCmd8 w = .error .illegalCommand ∧ runCommand w s = .next (s.setErr errIllegalCommand)) := by
  rcases decodeCmd8_cases w with h | h | h | h <;> simp [runCommand, h, raiseError]

end Sys2Proof.Machine
end

