-- ==== Sys2Proof/Tests/Slice0.lean ====
section
/-! SUPPORT. The model's own tests: well-formedness, written-out words, worked examples of the spec (95_test_vectors.md and the rules' examples), and a witness for the hypotheses of each statement. -/

namespace Sys2Proof.Tests

open Sys2Proof Sys2Proof.Machine

/-- The reset state of an engine of the reference configuration (00_scope.md R9). -/
def st (m : MinorityMode) : State := State.resetWith (Config.cfgA m)

/-- A state with the given registers, otherwise as after reset. -/
def stR (m : MinorityMode) (r1 : BitVec 19) (r2 : BitVec 22) (r3 : BitVec 23) : State :=
  (st m).setRegs { r1 := r1, r2 := r2, r3 := r3 }

/-- The state an outcome leaves, or the reset state where it stops. -/
def left (o : Host.Outcome State Fault Refusal) : State :=
  match o with
  | .next t => t
  | .fault _ => State.resetWith (Config.cfgA .plain)
  | .refused _ => State.resetWith (Config.cfgA .plain)

/-- Whether an outcome is the reserved-word fault. -/
def faults (o : Host.Outcome State Fault Refusal) : Bool :=
  match o with
  | .next _ => false
  | .fault .reservedLop => true
  | .refused _ => false

/-- The registers as three naturals. -/
def triple (s : State) : Nat × Nat × Nat := (s.regs.val .r1, s.regs.val .r2, s.regs.val .r3)

/-! Well-formedness: the one check refuses a KLEN past its field (R69). -/

theorem test_wf_refuses_klen_16 : (Instr.init 16).wf = false := by decide
theorem test_wf_accepts_klen_15 : (Instr.init 15).wf = true := by decide

/-! Decoding: words written out from R62 and R66. -/

theorem test_decode_nop : decode (.cmd8 0b00000000#8) = .ok .nop := by decide
theorem test_decode_init8 : decode (.cmd8 0b01000001#8) = .ok (.init 8) := by decide
theorem test_decode_init15 : decode (.cmd8 0b01111001#8) = .ok (.init 15) := by decide
theorem test_decode_gen : decode (.cmd8 0b00000010#8) = .ok .gen := by decide
theorem test_decode_hold : decode (.lop4 0b0000#4) = .ok .hold := by decide
theorem test_decode_clear : decode (.lop4 0b0001#4) = .ok .clear := by decide
theorem test_decode_feed1 : decode (.lop4 0b1010#4) = .ok (.feed true) := by decide
theorem test_decode_step_force : decode (.lop4 0b1011#4) = .ok (.step true) := by decide
theorem test_decode_step : decode (.lop4 0b0011#4) = .ok (.step false) := by decide
theorem test_decode_shift : decode (.lop4 0b0100#4) = .ok .shift := by decide

/-- V-D1: the illegal words of the decoder table. -/
theorem test_decode_illegal : ∀ w ∈ [0xC1#8, 0x0A#8, 0x08#8, 0x03#8, 0x04#8, 0x05#8, 0x06#8, 0x07#8, 0x80#8, 0xFF#8],
    decode (.cmd8 w) = .error .illegalCommand := by decide

/-- The table's LOP4 rows with their own four bits, and a CMD8 row. -/
theorem test_table_words : decodeTableWord 4 0x1 = some .clear ∧ decodeTableWord 8 0x01 = some (.init 0) ∧
    decodeTableWord 8 0x04 = some .shift := by decide

/-! NOP, INIT and GEN. -/

/-- R122's example: NOP clears the error a failed INIT left. -/
theorem test_nop_clears_err : (left (exec .nop ((st .plain).setErr 0b01#2))).err = 0b00#2 := by decide

/-- V-E2: FRAME 0x3FFFFF, key K0, PLAIN, after warm-up; and P1's STATUS 0x01. -/
theorem test_init_plain :
    triple (left (exec (.init 8) ((st .plain).setPorts 0xF0DEBC9A78563412#64 0x3FFFFF#32))) = (0x662BA, 0x2D3FD7, 0x6AFD09) ∧
    (left (exec (.init 8) ((st .plain).setPorts 0xF0DEBC9A78563412#64 0x3FFFFF#32))).status = 0x01#8 := by decide +kernel

/-- V-E5: the same frame, FULL. -/
theorem test_init_full :
    triple (left (exec (.init 8) ((st .full).setPorts 0#64 0x3FFFFF#32))) = (0x1DB49, 0x17FFA1, 0x7FC8BD) := by decide +kernel

/-- V-E1: the loaded state of FRAME 0x134 with key K0. -/
theorem test_init_loads :
    triple (phaseFrame 0x134#32 (phaseKey 0xF0DEBC9A78563412#64 (phaseClear (st .plain)))) = (0x64000, 0x164000, 0x164000) := by
  decide +kernel

/-- P2 after 0x39: INIT 7 leaves STATUS 0x04. -/
theorem test_init_wrong_length : (left (exec (.init 7) (st .plain))).status = 0x04#8 := by decide

/-- R130's example: the state after it and KS 0. -/
theorem test_gen_majority :
    triple (left (exec .gen (stR .plain 0x662BA#19 0x2D3FD7#22 0x6AFD09#23))) = (0x3315D, 0x2E9FEB, 0x4D7EC4) ∧
    (left (exec .gen (stR .plain 0x662BA#19 0x2D3FD7#22 0x6AFD09#23))).ks = false := by decide

/-- V-E6, GEN 1: R1 holds, KS 1, STATUS 0x02 (KS_VALID; no INIT before it here). -/
theorem test_gen_hold :
    triple (left (exec .gen (stR .plain 0x797BA#19 0x07024D#22 0x607AED#23))) = (0x797BA, 0x038126, 0x303D76) ∧
    (left (exec .gen (stR .plain 0x797BA#19 0x07024D#22 0x607AED#23))).hostView = (0x02#8, true) := by decide

/-! The leaf operations (V-L1, V-L2, R84 to R88). -/

theorem test_hold : triple (left (exec .hold (stR .plain 0x00101#19 0#22 0#23))) = (0x00101, 0, 0) := by decide

/-- V-L3: R3 0x7FFFFF cleared; the other leaves stay. -/
theorem test_clear :
    triple (left (exec .clear ((stR .plain 5#19 6#22 0x7FFFFF#23).setLeafSel .r3))) = (5, 6, 0) := by decide

/-- R86's example: bit 0 XORed away, the rest shifted. -/
theorem test_feed_one : triple (left (exec (.feed true) (stR .plain 0x00005#19 3#22 3#23))) = (0x00008, 3, 3) := by decide

/-- V-L1: the top bit of R2 is discarded. -/
theorem test_feed_top :
    triple (left (exec (.feed false) ((stR .plain 3#19 0x200000#22 3#23).setLeafSel .r2))) = (3, 0, 3) := by decide

/-- V-L2: feedback on R1. -/
theorem test_step_feedback : triple (left (exec (.step false) (stR .plain 0x7FFFF#19 0#22 0#23))) = (0x46FFF, 0, 0) := by decide

/-- V-L2: the taps of R3 cancel; force has no effect. -/
theorem test_step_force :
    triple (left (exec (.step true) ((stR .plain 0#19 0#22 0x700081#23).setLeafSel .r3))) = (0, 0, 0x400000) := by decide

/-- R88's example: no feedback though bit 0 is 1. -/
theorem test_shift : triple (left (exec .shift (stR .plain 0x00003#19 3#22 3#23))) = (0x00001, 3, 3) := by decide

/-! The arbiter (V-A1, V-S1, V-S2). -/

/-- V-A1's inputs for three clock bits, and one majority cycle of them. -/
def va1 (m : MinorityMode) (c1 c2 c3 : Bool) : Nat × Nat × Nat :=
  triple (majStep (stR m (0x00001#19 ||| (BitVec.ofBool c1).setWidth 19 <<< 8)
    (0x000001#22 ||| (BitVec.ofBool c2).setWidth 22 <<< 10) (0x000001#23 ||| (BitVec.ofBool c3).setWidth 23 <<< 10)))

theorem test_arbiter_plain :
    va1 .plain false false false = (0, 0, 0) ∧ va1 .plain false false true = (0, 0, 0x000401) ∧
    va1 .plain false true false = (0, 0x000401, 0) ∧ va1 .plain false true true = (0x79000, 0x380200, 0x780240) ∧
    va1 .plain true false false = (0x00101, 0, 0) ∧ va1 .plain true false true = (0x79080, 0x380000, 0x780240) ∧
    va1 .plain true true false = (0x79080, 0x380200, 0x780040) ∧ va1 .plain true true true = (0x79080, 0x380200, 0x780240) := by
  decide

theorem test_arbiter_full :
    va1 .full false false false = (0x79000, 0x380000, 0x780040) ∧ va1 .full false false true = (0x79000, 0x380000, 0x000401) ∧
    va1 .full false true false = (0x79000, 0x000401, 0x780040) ∧ va1 .full true false false = (0x00101, 0x380000, 0x780040) ∧
    va1 .full true true false = (0x79080, 0x380200, 0x780040) := by
  decide

/-! The step. -/

/-- P2 after 0x03: STATUS 0x08. -/
theorem test_step_illegal : (left (step ((st .plain).setInputs [.command 0x03#8]))).status = 0x08#8 := by decide

/-- V-L3: a reserved word faults. -/
theorem test_step_reserved : faults (step ((st .plain).setInputs [.leaf .r1 0x9#4])) = true := by decide

/-- P4, its third FEED: R1 0x00004 becomes 0x0000A. -/
theorem test_step_leaf : triple (left (step ((stR .plain 0x00004#19 0#22 0#23).setInputs [.leaf .r1 0xA#4]))) = (0x0000A, 0, 0) := by
  decide

/-- A table word is what the very next step after reset runs, the configuration left open. -/
theorem test_fetch_word_runs : (left (step (State.reset.withFetchWord 8 0x39))).err = 0b01#2 := by decide

/-! The host's functions and the assembler. -/

/-- V-H1. -/
theorem test_pack32 : pack32 [true, false, true] = 5#32 := by decide

/-- R15, V-E6: from the state before GEN 1 the keystream bit is 1, so a text bit 1 becomes 0. -/
theorem test_cipher : (hostCipher [true] (stR .plain 0x797BA#19 0x07024D#22 0x607AED#23)).map (fun p => p.1) = some [false] := by
  decide

/-- R41: K0 on the port. -/
theorem test_pack_key : packKey [0x12#8, 0x34#8, 0x56#8, 0x78#8, 0x9A#8, 0xBC#8, 0xDE#8, 0xF0#8] = 0xF0DEBC9A78563412#64 := by decide

/-- R7: PLAIN is the mode where none is named, at reset and when a configuration is built. -/
theorem test_minority_default : State.reset.cfg.minority = .plain ∧
    (buildConfig
      { tap1 := 0, tap2 := 0, tap3 := 0, clk1 := 0, clk2 := 0, clk3 := 0,
        frameW := 32, initLatency := 1, genLatency := 1 }).map (fun c => c.minority) = some .plain := by decide

/-- The last key bit and the first frame bit, as driven into the leaves (R125, R126). -/
theorem test_driven_at_the_key_frame_boundary :
    (driven ((st .plain).setSeq (.load 63 (1#64 <<< 63) 0#32))).l1.word = 0xA#4 ∧
    (driven ((st .plain).setSeq (.load 64 0#64 1#32))).l1.word = 0xA#4 := by decide

/-- R69, R70: case, comment, pseudo-instructions, a raw word. -/
theorem test_assemble_cmds :
    assembleCmds [['i', 'n', 'i', 't', ' ', ';', '8'], ['I', 'N', 'I', 'T', ' ', '0', 'x', '9'],
      ['G', 'E', 'N', 'E', 'R', 'A', 'T', 'E', ' ', '2'], ['.', 'c', 'm', 'd', ' ', '0', 'x', 'C', '1'], ['N', 'O', 'P']]
      = some [0x41#8, 0x49#8, 0x02#8, 0x02#8, 0xC1#8, 0x00#8] := by decide

theorem test_assemble_refuses_16 : assembleCmdLine ['I', 'N', 'I', 'T', ' ', '1', '6'] = none := by decide

/-- R71. -/
theorem test_assemble_lops :
    assembleLopLine ['F', 'E', 'E', 'D', ' ', '1'] = some [0xA#4] ∧ assembleLopLine ['S', 'T', 'E', 'P', '.', 'F'] = some [0xB#4] ∧
    assembleLopLine ['S', 'T', 'E', 'P'] = some [0x3#4] := by decide

/-! Witnesses: a concrete state and operands for the hypotheses of each statement, one for each clause. -/

/-- ResetAbandonsWhateverExecutes: a busy engine with a reset waiting, and a cycle with the reset pin. -/
theorem witness_reset :
    (((st .plain).setSeq (.warmup 99)).setInputs [.reset, .majCycle]).inputs = .reset :: [.majCycle] ∧
    ({ rst := true, cmdValid := true, cmd := 0x41#8 } : Pins).rst = true := by decide

/-- LeafWordDecoderFollowsTheMap, ReservedLeafWordFaults: 0x8 is no legal word and is reserved; 0xB is not reserved. -/
theorem witness_reserved : 0x8#4 ∉ legalLopWords ∧ 0x8#4 ∈ reservedLopWords ∧ 0xB#4 ∉ reservedLopWords := by decide

/-- DecodeOfEncodeIsTheInstruction, EncodeOfDecodeIsTheWord, TableWordIsTheNextInstruction. -/
theorem witness_encode : (Instr.init 15).wf = true ∧ decode (.cmd8 0x79#8) = .ok (.init 15) := by decide

/-- StepRunsTheDecodedCommand (and every statement about an idle engine with a command word waiting). -/
theorem witness_command (w : BitVec 8) : ((st .full).setInputs [.command w, .reset]).seq = .idle ∧
    ((st .full).setInputs [.command w, .reset]).inputs = .command w :: [.reset] := ⟨rfl, rfl⟩

theorem witness_command_decodes : decode (.cmd8 0x02#8) = .ok .gen ∧ decode (.lop4 0xB#4) = .ok (.step true) := by decide

/-- StepRunsTheDecodedLeafWord, ReservedLeafWordFaults, DrivingPortsChangesOnlyThePins, MajorityCycleMatchesThePseudocode. -/
theorem witness_other_actions :
    ((st .plain).setInputs [.leaf .r3 0xB#4]).seq = .idle ∧
    ((st .plain).setInputs [.leaf .r3 0xB#4]).inputs = [.leaf .r3 0xB#4] ∧
    ((st .plain).setInputs [.drivePorts 1#64 2#32]).inputs = [.drivePorts 1#64 2#32] ∧
    ((st .plain).setInputs [.majCycle]).inputs = [.majCycle] := by decide

/-- IllegalCommandWritesErrOnly: each clause, at its boundary; 0xC1 is the INIT word with bit 7 set. -/
theorem witness_illegal :
    3 ≤ opField 0x03#8 ∧ rsvField 0x80#8 = 1 ∧ rsvField 0xC1#8 = 1 ∧ (opField 0x08#8 = 0 ∧ klenField 0x08#8 ≠ 0) ∧
    (opField 0x0A#8 = 2 ∧ klenField 0x0A#8 ≠ 0) := by decide

/-- IdleEngineHoldsEveryLeaf. -/
theorem witness_idle : (st .plain).seq = .idle ∧ (st .plain).inputs = [] ∧
    ({ rst := false, cmdValid := false, cmd := 0#8 } : Pins).rst = false := by decide

/-- SafeActionsNeverStopTheMachine. -/
theorem witness_safe :
    ((st .plain).setInputs [.command 0xFF#8, .leaf .r2 0xB#4, .drivePorts 0#64 0#32, .majCycle, .reset]).inputsSafe = true := by decide

/-- InitWithWrongLengthWritesErrOnly: INIT 7 and INIT 9 words. -/
theorem witness_wrong_length :
    (opField 0x39#8 = 1 ∧ rsvField 0x39#8 = 0 ∧ klenField 0x39#8 ≠ 8) ∧ (opField 0x49#8 = 1 ∧ klenField 0x49#8 ≠ 8) := by decide

/-- InitIgnoresHighFrameBits, KeystreamDependsOnFrameAlone: V-S4's frames; other key, registers and status. -/
theorem witness_frames :
    (∀ k, k < 22 → (0x0FFFFF#32).getLsbD k = (0x4FFFFF#32).getLsbD k) ∧
    (((stR .plain 1#19 2#22 3#23).setErr 2#2).setPorts 7#64 0x4FFFFF#32).seq = .idle ∧
    (((stR .plain 1#19 2#22 3#23).setErr 2#2).setPorts 7#64 0x4FFFFF#32).cfg = (st .plain).cfg := by decide

/-- AtLeastTwoRegistersMove: m = 0, 1, 2. -/
theorem witness_majority : majorityCount false false false = 0 ∧ majorityCount true false false = 1 ∧
    majorityCount true false true = 2 := by decide

/-- OutputBitsAfterMajorityCycle: V-S1's clock bits (1,1,0), and V-S2's (1,0,0) with PLAIN. -/
theorem witness_output_bits :
    2 ≤ majorityCount ((stR .plain 0x00101#19 0x000401#22 1#23).clkBitOf .r1) ((stR .plain 0x00101#19 0x000401#22 1#23).clkBitOf .r2)
      ((stR .plain 0x00101#19 0x000401#22 1#23).clkBitOf .r3) ∧
    majorityCount ((stR .plain 0x00101#19 1#22 1#23).clkBitOf .r1) ((stR .plain 0x00101#19 1#22 1#23).clkBitOf .r2)
      ((stR .plain 0x00101#19 1#22 1#23).clkBitOf .r3) < 2 ∧
    (stR .plain 0x00101#19 1#22 1#23).cfg.minority = .plain := by decide

/-- The leaf statements: another leaf than the selected one. FeedsHaveAClosedForm, StepIsABijection, Pack32KeepsTheLastBits: a
width, the top position. -/
theorem witness_leaf : LeafId.r2 ≠ (st .plain).leafSel ∧ 18 < 19 ∧ 1 ≤ 19 ∧ 31 < 32 := by decide

/-- StepKeepsTheEngineInvariant, NothingChangesTheConfiguration: a step that takes an INIT word. -/
theorem witness_inv : ((st .plain).setInputs [.command 0x01#8]).Inv ∧
    ∃ t, step ((st .plain).setInputs [.command 0x01#8]) = .next t ∧ t.err = 0b01#2 :=
  ⟨⟨by decide, rfl⟩, _, rfl, rfl⟩

/-- ReadyFallsOnlyWithReset: a ready engine, a command waiting. -/
theorem witness_ready : ∃ t, step (((st .plain).markInitDone).setInputs [.command 0xFF#8]) = .next t ∧
    ((st .plain).markInitDone).ready = true ∧
    (((st .plain).markInitDone).setInputs [.command 0xFF#8]).inputs.head? ≠ some .reset :=
  ⟨_, rfl, rfl, by decide⟩

/-- InitTakesOneHundredEightySevenLeafCycles: 187 cycles in which the host keeps presenting a GEN. -/
theorem witness_cycles :
    (List.replicate 187 ({ rst := false, cmdValid := true, cmd := 0x02#8 } : Pins)).length = 187 ∧
    ∀ p ∈ List.replicate 187 ({ rst := false, cmdValid := true, cmd := 0x02#8 } : Pins), p.rst = false :=
  ⟨List.length_replicate, fun _ hp => by rw [List.eq_of_mem_replicate hp]⟩

/-- HandshakeAcceptsOnlyWhenReady, BusyCyclesShowThePreviousOutcome, PortsAreSampledAtAcceptance: an idle engine and a valid
word; a busy engine at the first load index, busy after the cycle. -/
theorem witness_handshake :
    (st .plain).seq = .idle ∧ ({ rst := false, cmdValid := true, cmd := 0x41#8 } : Pins).cmdValid = true ∧
    ((st .plain).setSeq (.load 0 1#64 2#32)).busy = true ∧
    (cycle { rst := false, cmdValid := true, cmd := 0x02#8 } ((st .plain).setSeq (.load 0 1#64 2#32))).busy = true := by decide

/-- SequencerDrivesTheRuleWords: one state for each clause. -/
theorem witness_sequencer :
    ((st .plain).setSeq (.accepted 0x41#8 0#64 0#32)).seq = .accepted 0x41#8 0#64 0#32 ∧
    ((st .plain).setSeq (.load 63 (1#64 <<< 63) 0#32)).seq = .load 63 (1#64 <<< 63) 0#32 ∧
    ((st .plain).setSeq (.load 64 0#64 1#32)).seq = .load 64 0#64 1#32 ∧
    ((st .plain).setSeq (.load 85 0#64 0#32)).seq = .load 85 0#64 0#32 ∧
    ((st .plain).setSeq (.warmup 99)).seq = .warmup 99 ∧
    ((st .plain).setSeq (.accepted 0x02#8 0#64 0#32)).seq = .accepted 0x02#8 0#64 0#32 := by decide

/-- StreamIgnoresNopsAndFailures: GENs among a NOP, a failing INIT and an illegal word. -/
theorem witness_stream : ∀ w ∈ [0x02#8, 0x00#8, 0x49#8, 0x02#8, 0xFF#8], w ≠ 0x41#8 := by decide

/-- ZeroFrameGivesZeroKeystream: all ten high bits of the port set. KnownScenarioIsDegenerate: its ports. -/
theorem witness_frame_values : (0xFFC00000#32).extractLsb' 0 22 = 0#22 ∧
    ((st .plain).setPorts 5#64 0x134#32).framePort = 0x134#32 ∧ ((st .plain).setPorts 5#64 0x134#32).cfg = Config.cfgA .plain ∧
    ((st .plain).setPorts 5#64 0x134#32).seq = .idle := by decide

/-- InstancesShareNothing: the second of two engines takes a NOP. -/
theorem witness_instances : (stepInstance 1 [st .plain, (st .full).setInputs [.command 0x00#8]]).isSome = true := by decide

/-- HostInitRejectsWrongKeyLengths, KeyBytesLieInAscendingOrder: keys of 7, 15, 16 and 8 bytes. -/
theorem witness_keys :
    ((List.replicate 7 0#8).length ≠ 8 ∧ (List.replicate 15 0#8).length ≤ 15) ∧ 15 < (List.replicate 16 0#8).length ∧
    [0x12#8, 0x34#8, 0x56#8, 0x78#8, 0x9A#8, 0xBC#8, 0xDE#8, 0xF0#8].length = 8 ∧ 7 < 8 := by decide

/-- IllegalConfigurationIsRefused: the largest legal numbers are accepted, a mask of 2^19 and a clock position of 23 are not. -/
theorem witness_config :
    ({ tap1 := 2 ^ 19 - 1, tap2 := 2 ^ 22 - 1, tap3 := 2 ^ 23 - 1, clk1 := 18, clk2 := 21, clk3 := 22, minority := .full,
       frameW := 22, initLatency := 1, genLatency := 1 } : ConfigNumbers).legal = true ∧
    ({ tap1 := 2 ^ 19, tap2 := 0, tap3 := 0, clk1 := 0, clk2 := 0, clk3 := 0, minority := .plain,
       frameW := 32, initLatency := 1, genLatency := 1 } : ConfigNumbers).legal = false ∧
    ({ tap1 := 0, tap2 := 0, tap3 := 0, clk1 := 0, clk2 := 0, clk3 := 23, minority := .plain,
       frameW := 32, initLatency := 1, genLatency := 1 } : ConfigNumbers).legal = false := by decide

end Sys2Proof.Tests
end

/-! PROOFS. The statements of 00_scope.md: leaf words, the configuration and its legality, and the atomic command as the
sequencer's run. -/

namespace Sys2Proof.Machine

/-! Loops in two parts. -/

/-- A loop of `m + n` iterations is its first `m`, then the other `n` with their own numbers. -/
theorem loop_add {α : Type} (body : Nat → α → α) (m n : Nat) (a : α) :
    loop body (m + n) a = loop (fun k => body (m + k)) n (loop body m a) := by
  induction n with
  | zero => rfl
  | succ n ih => rw [loop_succ, ← ih]; rfl

theorem loop_congr {α : Type} {body body' : Nat → α → α} {n : Nat} (h : ∀ k, k < n → body k = body' k) (a : α) :
    loop body n a = loop body' n a := by
  induction n with
  | zero => rfl
  | succ n ih => rw [loop_succ, loop_succ, ih fun k hk => h k (by omega), h n (by omega)]

/-! Leaf words. -/

theorem runLeafWord_of_decode {w : BitVec 4} {i : Instr} (h : decodeLop4 w = .ok i) (id : LeafId) (s : State) :
    runLeafWord id w s = exec i (s.setLeafSel id) := by
  simp [runLeafWord, h]

/-- Settles O10: an idle engine takes its oldest action, and a leaf word that decodes is run on the leaf it names. -/
theorem stepRunsTheDecodedLeafWord : Obligations.StepRunsTheDecodedLeafWord := by
  intro s id w rest i hidle hin hdec
  calc step s = runLeafWord id w (s.setInputs rest) := step_of_idle s _ rest hidle hin
    _ = exec i ((s.setInputs rest).setLeafSel id) := runLeafWord_of_decode hdec id _

/-! The configuration: no operation writes it. -/

theorem exec_cfg {i : Instr} {s t : State} (h : exec i s = .next t) : t.cfg = s.cfg := by
  obtain ⟨r, rd, kv, e, k, hexec, -⟩ := exec_cases i s
  rw [hexec] at h; cases h; rfl

@[simp] theorem advance_cfg (s : State) : (advance s).cfg = s.cfg := by
  obtain ⟨r, rd, kv, e, k, q, h, -⟩ := advance_cases s
  rw [h]

@[simp] theorem finish_cfg (s : State) : (finish s).cfg = s.cfg :=
  loop_frame State.cfg (fun _ => advance_cfg) _ s

theorem takeInput_cfg {a : Input} {s t : State} (h : takeInput a s = .next t) : t.cfg = s.cfg := by
  cases a with
  | command w =>
    obtain ⟨i, -, hrun⟩ | ⟨-, hrun⟩ := runCommand_cases w s
    · exact exec_cfg (hrun.symm.trans h)
    · cases hrun.symm.trans h; rfl
  | drivePorts key frame => cases h; rfl
  | reset => cases h; rfl
  | leaf id w =>
    simp only [takeInput, runLeafWord] at h
    split at h
    · exact (exec_cfg h :)
    · cases h
  | majCycle => cases h; rfl

theorem step_cfg {s t : State} (h : step s = .next t) : t.cfg = s.cfg := by
  obtain ⟨-, hstep⟩ | ⟨a, rest, -, -, -, hstep⟩ | ⟨a, rest, -, -, hstep⟩ := step_cases s
  · cases hstep.symm.trans h; exact finish_cfg s
  · cases hstep.symm.trans h; exact finish_cfg s
  · exact (takeInput_cfg (hstep.symm.trans h) :)

theorem cycle_cfg (p : Pins) (s : State) : (cycle p s).cfg = s.cfg := by
  unfold cycle
  split_ifs
  · rfl
  · rfl
  · exact advance_cfg s
  · exact advance_cfg s

/-- Settles O41: neither a step nor a cycle has an operation that writes the configuration. -/
theorem nothingChangesTheConfiguration : Obligations.NothingChangesTheConfiguration :=
  ⟨fun _ _ => step_cfg, cycle_cfg⟩

/-! Building a configuration. -/

theorem ConfigNumbers.legal_iff (n : ConfigNumbers) : n.legal = true ↔
    n.tap1 < 2 ^ 19 ∧ n.tap2 < 2 ^ 22 ∧ n.tap3 < 2 ^ 23 ∧ n.clk1 ≤ 18 ∧ n.clk2 ≤ 21 ∧ n.clk3 ≤ 22 ∧ 22 ≤ n.frameW ∧
      1 ≤ n.initLatency ∧ 1 ≤ n.genLatency :=
  decide_eq_true_iff

theorem buildConfig_of_not_legal {n : ConfigNumbers} (h : ¬ n.legal = true) : buildConfig n = none := if_neg h

/-- The numbers of a legal configuration survive being stored in fields of their own widths. -/
theorem buildConfig_of_legal {n : ConfigNumbers} (h : n.legal = true) :
    ∃ c, buildConfig n = some c ∧ tapVal c .r1 = n.tap1 ∧ tapVal c .r2 = n.tap2 ∧ tapVal c .r3 = n.tap3 ∧
      clkPos c .r1 = n.clk1 ∧ clkPos c .r2 = n.clk2 ∧ clkPos c .r3 = n.clk3 ∧ c.minority = n.minority ∧
      c.frameW = n.frameW ∧ (c.initLatency : Nat) = n.initLatency ∧ (c.genLatency : Nat) = n.genLatency := by
  obtain ⟨ht1, ht2, ht3, hc1, hc2, hc3, -, hi, hg⟩ := n.legal_iff.1 h
  refine ⟨_, if_pos h, ?_, ?_, ?_, ?_, ?_, ?_, rfl, rfl, ?_, ?_⟩
  · exact Nat.mod_eq_of_lt ht1
  · exact Nat.mod_eq_of_lt ht2
  · exact Nat.mod_eq_of_lt ht3
  · exact Nat.mod_eq_of_lt (Nat.lt_succ_of_le hc1)
  · exact Nat.mod_eq_of_lt (Nat.lt_succ_of_le hc2)
  · exact Nat.mod_eq_of_lt (Nat.lt_succ_of_le hc3)
  · exact PNat.toPNat'_coe hi
  · exact PNat.toPNat'_coe hg

/-- Settles O58: the legality check is R8's bounds, and numbers within them fit their fields. -/
theorem illegalConfigurationIsRefused : Obligations.IllegalConfigurationIsRefused := by
  intro n
  rw [← n.legal_iff]
  exact ⟨buildConfig_of_legal, buildConfig_of_not_legal⟩

/-! The sequencer's cycles, one by one. -/

theorem State.setSeq_of_seq {s : State} {q : Sequencer} (h : s.seq = q) : s.setSeq q = s := by rw [← h]; rfl

@[simp] theorem State.leafCycle_all_hold (s : State) : s.leafCycle (Lops.all .hold) = s := rfl

theorem startsInit_of_decode {w : BitVec 8} {klen : Nat} (h : decodeCmd8 w = .ok (.init klen)) :
    startsInit w = klenOk klen := by
  simp [startsInit, h]

theorem advance_accept (w : BitVec 8) (s : State) : advance (accept w s) =
    if startsInit w then ((accept w s).leafCycle (driven (accept w s))).setSeq (.load 0 s.keyPort s.framePort)
    else (completeAccepted w ((accept w s).leafCycle (driven (accept w s)))).setSeq .idle := rfl

/-- R124: the first cycle of a successful INIT drives CLEAR into every leaf. -/
theorem advance_accept_of_startsInit {w : BitVec 8} (h : startsInit w = true) (s : State) :
    advance (accept w s) = (phaseClear s).setSeq (.load 0 s.keyPort s.framePort) := by
  have hdriven : driven (accept w s) = Lops.all .clear := by rw [(startsInit_iff w).1 h]; rfl
  rw [advance_accept, if_pos h, hdriven]; rfl

theorem advance_load (i : Fin 86) (key : BitVec 64) (frame : BitVec 32) (s : State) :
    advance (s.setSeq (.load i key frame)) = (feedAll (loadBit key frame i) s).setSeq (nextLoad i key frame) := rfl

theorem advance_warmup (k : Fin 100) (s : State) :
    advance (s.setSeq (.warmup k)) =
      if h : k.val + 1 < 100 then (majStep s).setSeq (.warmup ⟨k.val + 1, h⟩)
      else (majStep s).markInitDone.setSeq .idle := rfl

/-! INIT's phases as runs of the sequencer. -/

/-- `n` load cycles feed the first `n` load bits. -/
theorem loop_advance_load (key : BitVec 64) (frame : BitVec 32) (s : State) (n : Nat) (h : n < 86) :
    loop (fun _ => advance) n (s.setSeq (.load 0 key frame)) =
      (loop (fun k => feedAll (loadBit key frame k)) n s).setSeq (.load ⟨n, h⟩ key frame) := by
  induction n with
  | zero => rfl
  | succ n ih => rw [loop_succ, ih (by omega), advance_load, nextLoad, dif_pos h]; rfl

theorem loop_advance_load_all (key : BitVec 64) (frame : BitVec 32) (s : State) :
    loop (fun _ => advance) 86 (s.setSeq (.load 0 key frame)) =
      (loop (fun k => feedAll (loadBit key frame k)) 86 s).setSeq (.warmup 0) := by
  rw [loop_succ, loop_advance_load key frame s 85 (by omega), advance_load]; rfl

/-- R125, R126: the 86 load bits are the 64 key bits and then the 22 frame bits. -/
theorem loop_feedAll_loadBit (key : BitVec 64) (frame : BitVec 32) (s : State) :
    loop (fun k => feedAll (loadBit key frame k)) 86 s = phaseFrame frame (phaseKey key s) := by
  have hkey : loop (fun k => feedAll (loadBit key frame k)) keyBits s = phaseKey key s :=
    loop_congr (fun k hk => by rw [loadBit, if_pos hk]) s
  rw [show 86 = keyBits + frameBits from rfl, loop_add, hkey]
  exact loop_congr (fun k _ => by simp [loadBit]) _

/-- `n` warm-up cycles are `n` majority cycles. -/
theorem loop_advance_warmup (s : State) (n : Nat) (h : n < 100) :
    loop (fun _ => advance) n (s.setSeq (.warmup 0)) = (loop (fun _ => majStep) n s).setSeq (.warmup ⟨n, h⟩) := by
  induction n with
  | zero => rfl
  | succ n ih => rw [loop_succ, ih (by omega), advance_warmup, dif_pos h]; rfl

theorem loop_advance_warmup_all (s : State) :
    loop (fun _ => advance) 100 (s.setSeq (.warmup 0)) = (phaseWarmup s).markInitDone.setSeq .idle := by
  rw [loop_succ, loop_advance_warmup s 99 (by omega), advance_warmup]; rfl

@[simp] theorem initEffect_seq (key : BitVec 64) (frame : BitVec 32) (s : State) :
    (initEffect key frame s).seq = s.seq := by
  simp [initEffect, phaseClear, phaseKey_eq, phaseFrame_eq, phaseWarmup_eq]

/-- The 187 leaf cycles of a successful INIT: one CLEAR, 86 FEEDs, 100 majority cycles (R179). -/
theorem loop_advance_accept_of_startsInit {w : BitVec 8} (h : startsInit w = true) (s : State) :
    loop (fun _ => advance) 187 (accept w s) = (initEffect s.keyPort s.framePort s).setSeq .idle := by
  have hclear : loop (fun _ => advance) 1 (accept w s) = (phaseClear s).setSeq (.load 0 s.keyPort s.framePort) :=
    advance_accept_of_startsInit h s
  rw [show 187 = 1 + 86 + 100 from rfl, loop_add, loop_add, hclear, loop_advance_load_all, loop_feedAll_loadBit,
    loop_advance_warmup_all]
  rfl

/-! A command run to completion. -/

theorem finish_accept_of_startsInit {w : BitVec 8} (h : startsInit w = true) {s : State} (hidle : s.seq = .idle) :
    finish (accept w s) = initEffect s.keyPort s.framePort s := by
  have hleft : cyclesLeft (accept w s).seq = 187 := if_pos h
  rw [finish, hleft, loop_advance_accept_of_startsInit h, State.setSeq_of_seq (by simp [hidle])]

theorem finish_accept_of_not_startsInit {w : BitVec 8} (h : startsInit w = false) (s : State) :
    finish (accept w s) =
      (completeAccepted w ((accept w s).leafCycle (driven (accept w s)))).setSeq .idle := by
  have hleft : cyclesLeft (accept w s).seq = 1 := if_neg (by simp [h])
  rw [finish, hleft, loop_succ, loop_zero, advance_accept, if_neg (by simp [h])]

/-- A command that leaves the leaves alone: HOLD for its one cycle, and at its end a code in ERR. -/
theorem finish_accept_of_setErr {w : BitVec 8} {e : BitVec 2} {s : State} (hidle : s.seq = .idle)
    (hstart : startsInit w = false) (hdriven : driven (accept w s) = Lops.all .hold)
    (hdone : ∀ t, completeAccepted w t = t.setErr e) : finish (accept w s) = s.setErr e := by
  rw [finish_accept_of_not_startsInit hstart, hdriven, State.leafCycle_all_hold, hdone]
  exact State.setSeq_of_seq (s := s.setErr e) hidle

/-- GEN's one cycle: the arbiter's selection, and the bit of the registers it leaves. -/
theorem finish_accept_of_gen {w : BitVec 8} (h : decodeCmd8 w = .ok .gen) {s : State} (hidle : s.seq = .idle) :
    finish (accept w s) = genEffect s := by
  have hdriven : driven (accept w s) = arbiter s.cfg s.regs := by simp [driven, accept, h]
  have hdone : ∀ t, completeAccepted w t = t.latchKs (keystreamBit t.regs) := fun t => by simp [completeAccepted, h]
  rw [finish_accept_of_not_startsInit (by simp [startsInit, h]), hdriven, hdone]
  exact State.setSeq_of_seq (s := genEffect s) hidle

/-- The atomic command is its sequencer's run, whatever the word. -/
theorem runCommand_eq_finish_accept (w : BitVec 8) {s : State} (hidle : s.seq = .idle) :
    runCommand w s = .next (finish (accept w s)) := by
  obtain hdec | hdec | hdec | hdec := decodeCmd8_cases w
  · rw [finish_accept_of_setErr (e := errOk) hidle (by simp [startsInit, hdec]) (by simp [driven, accept, hdec])
      (by simp [completeAccepted, hdec, nopEffect])]
    simp [runCommand, hdec, exec_nop]
  · rw [finish_accept_of_gen hdec hidle]
    simp [runCommand, hdec, exec_gen]
  · have hstart := startsInit_of_decode hdec
    cases hk : klenOk (cmdKlen w).toNat with
    | true =>
      rw [finish_accept_of_startsInit (hstart.trans hk) hidle]
      simp [runCommand, hdec, exec_init, hk]
    | false =>
      rw [finish_accept_of_setErr (e := errInvalidArgument) hidle (hstart.trans hk)
        (by simp [driven, accept, hdec, hk]) (by simp [completeAccepted, hdec, raiseError_eq])]
      simp [runCommand, hdec, exec_init, hk]
  · rw [finish_accept_of_setErr (e := errIllegalCommand) hidle (by simp [startsInit, hdec])
      (by simp [driven, accept, hdec]) (by simp [completeAccepted, hdec, raiseError_eq])]
    simp [runCommand, hdec, raiseError_eq]

/-- Settles O43: the word's decoding decides the run, one cycle for every command but a successful INIT, whose 187 cycles are
its four phases. -/
theorem atomicCommandIsTheSequencersRun : Obligations.AtomicCommandIsTheSequencersRun := by
  intro s w rest hidle hin
  calc step s = runCommand w (s.setInputs rest) := step_of_idle s _ rest hidle hin
    _ = .next (finish (accept w (s.setInputs rest))) := runCommand_eq_finish_accept w hidle

end Sys2Proof.Machine

/-! PROOFS. The statements of 10_state.md: the reset values, the STATUS byte, what a command word leaves in every field, and
what every step keeps of READY, ERR and BUSY. -/

namespace Sys2Proof.Machine

/-! Reset. -/

/-- Settles O1: R35's table is the reset state's own fields. -/
theorem resetValuesAreTheSpecs : Obligations.ResetValuesAreTheSpecs :=
  ⟨rfl, rfl, rfl, rfl, rfl, rfl, rfl, rfl, rfl, rfl⟩

/-- Settles O40: ERR is 0b00 and the sequencer idle at reset. -/
theorem resetHasTheEngineInvariant : Obligations.ResetHasTheEngineInvariant :=
  have herr : State.reset.err ≠ 0b11#2 := show 0b00#2 ≠ 0b11#2 by decide
  ⟨herr, rfl⟩

/-! The STATUS byte. -/

theorem State.status_toNat (s : State) :
    s.status.toNat = s.ready.toNat + 2 * s.ksValid.toNat + 4 * s.err.toNat + 16 * s.busy.toNat := by
  unfold State.status
  generalize s.busy = busy, s.err = err, s.ksValid = ksValid, s.ready = ready
  revert busy err ksValid ready
  decide

/-- Bits 7..5 lie above every field, so the byte is below 2^5. -/
theorem State.status_high_bits (s : State) : s.status.extractLsb' 5 3 = 0#3 := by
  have hready := Bool.toNat_le s.ready
  have hvalid := Bool.toNat_le s.ksValid
  have hbusy := Bool.toNat_le s.busy
  have herr := s.err.isLt
  have hlt : s.status.toNat < 2 ^ 5 := by rw [State.status_toNat]; omega
  apply BitVec.eq_of_toNat_eq
  rw [BitVec.extractLsb'_toNat, Nat.shiftRight_eq_div_pow, Nat.div_eq_of_lt hlt]
  rfl

/-- Settles O23: the byte is the sum of its fields' weights, which stays below 2^5. -/
theorem statusByteHasItsFieldsInPlace : Obligations.StatusByteHasItsFieldsInPlace :=
  fun s => ⟨s.status_toNat, s.status_high_bits⟩

/-! What every step but reset keeps of the STATUS register. -/

/-- READY stays up (R26), and ERR does not become 0b11, which no rule writes (R25, R150). -/
structure StatusKept (s t : State) : Prop where
  ready : s.ready = true → t.ready = true
  err : s.err ≠ 0b11#2 → t.err ≠ 0b11#2

theorem StatusKept.of_eq {s t : State} (hready : t.ready = s.ready) (herr : t.err = s.err) : StatusKept s t :=
  ⟨fun h => hready.trans h, fun h => herr ▸ h⟩

theorem exec_keeps {i : Instr} {s t : State} (h : exec i s = .next t) : StatusKept s t ∧ t.seq = s.seq := by
  obtain ⟨r, rd, kv, e, k, hexec, hready, herr⟩ := exec_cases i s
  rw [hexec] at h; cases h
  exact ⟨⟨hready, herr⟩, rfl⟩

theorem finish_keeps (s : State) : StatusKept s (finish s) ∧ (finish s).seq = .idle := by
  obtain ⟨r, rd, kv, e, k, hfinish, hready, herr⟩ := finish_cases s
  rw [hfinish]
  exact ⟨⟨hready, herr⟩, rfl⟩

/-- An action other than reset keeps the STATUS fields and the sequencer. -/
theorem takeInput_keeps {a : Input} {s t : State} (ha : a ≠ .reset) (h : takeInput a s = .next t) :
    StatusKept s t ∧ t.seq = s.seq := by
  cases a with
  | command w =>
    obtain ⟨i, -, hrun⟩ | ⟨-, hrun⟩ := runCommand_cases w s
    · exact exec_keeps (hrun.symm.trans h)
    · cases hrun.symm.trans h
      exact ⟨⟨id, fun _ => show errIllegalCommand ≠ 0b11#2 by decide⟩, rfl⟩
  | drivePorts key frame => cases h; exact ⟨.of_eq rfl rfl, rfl⟩
  | reset => exact absurd rfl ha
  | leaf id w =>
    simp only [takeInput, runLeafWord] at h
    split at h
    · obtain ⟨⟨hready, herr⟩, hseq⟩ := exec_keeps h
      exact ⟨⟨hready, herr⟩, hseq⟩
    · cases h
  | majCycle => cases h; exact ⟨.of_eq rfl rfl, rfl⟩

/-- Reset alone does not wait for the command in progress (R171, R174). -/
theorem takenWhileBusy_iff (a : Input) : takenWhileBusy a = true ↔ a = .reset := by
  cases a <;> simp [takenWhileBusy]

/-- Every step ends with an idle engine: it was reset, or its STATUS fields are kept. -/
theorem step_keeps {s t : State} (h : step s = .next t) :
    t.seq = .idle ∧ ((s.inputs.head? = some .reset ∧ t.err = 0b00#2) ∨ StatusKept s t) := by
  obtain ⟨-, hstep⟩ | ⟨a, rest, -, -, -, hstep⟩ | ⟨a, rest, hin, htaken, hstep⟩ := step_cases s
  · cases hstep.symm.trans h
    exact ⟨(finish_keeps s).2, .inr (finish_keeps s).1⟩
  · cases hstep.symm.trans h
    exact ⟨(finish_keeps s).2, .inr (finish_keeps s).1⟩
  · by_cases ha : a = .reset
    · subst ha
      cases hstep.symm.trans h
      exact ⟨rfl, .inl ⟨by simp [hin], rfl⟩⟩
    · have hidle : s.seq = .idle :=
        s.busy_eq_false_iff.1 (htaken.resolve_right (mt (takenWhileBusy_iff a).1 ha))
      obtain ⟨⟨hready, herr⟩, hseq⟩ := takeInput_keeps ha (hstep.symm.trans h)
      exact ⟨hseq.trans hidle, .inr ⟨hready, herr⟩⟩

/-- Settles O39: reset writes 0b00 in ERR, and every other step keeps ERR away from 0b11; all of them end idle. -/
theorem stepKeepsTheEngineInvariant : Obligations.StepKeepsTheEngineInvariant := by
  intro s t ⟨herr, _⟩ hstep
  obtain ⟨hidle, ⟨-, hreset⟩ | hkept⟩ := step_keeps hstep
  · exact ⟨by simp [hreset], hidle⟩
  · exact ⟨hkept.err herr, hidle⟩

/-- Settles O42: a step that is not a reset keeps READY up. -/
theorem readyFallsOnlyWithReset : Obligations.ReadyFallsOnlyWithReset := by
  intro s t hstep hready hhead
  obtain ⟨-, ⟨hreset, -⟩ | hkept⟩ := step_keeps hstep
  · exact absurd hreset hhead
  · exact hkept.ready hready

/-! The command words, and what each class of them leaves. -/

theorem decodeCmd8_eq_nop_iff : ∀ w : BitVec 8, decodeCmd8 w = .ok .nop ↔ w = 0x00#8 := by decide

theorem decodeCmd8_eq_gen_iff : ∀ w : BitVec 8, decodeCmd8 w = .ok .gen ↔ w = 0x02#8 := by decide

theorem decodeCmd8_eq_init_iff : ∀ w : BitVec 8,
    decodeCmd8 w = .ok (.init (cmdKlen w).toNat) ↔ opField w = 1 ∧ rsvField w = 0 := by decide

theorem klenOk_iff_of_decode {w : BitVec 8} {klen : Nat} (h : decodeCmd8 w = .ok (.init klen)) :
    klenOk klen = true ↔ w = 0x41#8 := by
  rw [← startsInit_of_decode h, startsInit_iff]

/-- A successful INIT changes the registers, READY, KS_VALID and ERR alone (R128). -/
theorem initEffect_eq (key : BitVec 64) (frame : BitVec 32) (s : State) :
    ∃ r, initEffect key frame s = (s.setRegs r).markInitDone := by
  simp only [initEffect, phaseClear, phaseKey_eq, phaseFrame_eq, phaseWarmup_eq, State.leafCycle_eq,
    State.setRegs_setRegs]
  exact ⟨_, rfl⟩

/-- A failing command, an INIT of a wrong length or an illegal word: its code goes into ERR. -/
theorem runCommand_of_failing {w : BitVec 8} (hnop : w ≠ 0x00#8) (hgen : w ≠ 0x02#8) (hinit : w ≠ 0x41#8) (s : State) :
    runCommand w s = .next (s.setErr
      (if opField w = 1 ∧ rsvField w = 0 then errInvalidArgument else errIllegalCommand)) := by
  obtain hdec | hdec | hdec | hdec := decodeCmd8_cases w
  · exact absurd ((decodeCmd8_eq_nop_iff w).1 hdec) hnop
  · exact absurd ((decodeCmd8_eq_gen_iff w).1 hdec) hgen
  · have hlen := mt (klenOk_iff_of_decode hdec).1 hinit
    rw [if_pos ((decodeCmd8_eq_init_iff w).1 hdec)]
    simp [runCommand, hdec, exec_init, hlen]
  · rw [if_neg (mt (decodeCmd8_eq_init_iff w).2 (by simp [hdec]))]
    simp [runCommand, hdec, raiseError_eq]

/-- 0x00 is NOP, 0x02 GEN, 0x41 INIT 8, and any other word fails; each with the fields it may change. -/
theorem runCommand_outcomes (w : BitVec 8) (s : State) :
    (w = 0x00#8 ∧ runCommand w s = .next (s.setErr errOk)) ∨
    (w = 0x02#8 ∧ ∃ r z, runCommand w s = .next ((s.setRegs r).latchKs z)) ∨
    (w = 0x41#8 ∧ ∃ r, runCommand w s = .next (s.setRegs r).markInitDone) ∨
    ((w ≠ 0x00#8 ∧ w ≠ 0x02#8 ∧ w ≠ 0x41#8) ∧ runCommand w s = .next (s.setErr
      (if opField w = 1 ∧ rsvField w = 0 then errInvalidArgument else errIllegalCommand))) := by
  by_cases hnop : w = 0x00#8
  · subst hnop; exact .inl ⟨rfl, rfl⟩
  by_cases hgen : w = 0x02#8
  · subst hgen; exact .inr (.inl ⟨rfl, _, _, rfl⟩)
  by_cases hinit : w = 0x41#8
  · subst hinit
    obtain ⟨r, heffect⟩ := initEffect_eq s.keyPort s.framePort s
    exact .inr (.inr (.inl ⟨rfl, r, congrArg Host.Outcome.next heffect⟩))
  · exact .inr (.inr (.inr ⟨⟨hnop, hgen, hinit⟩, runCommand_of_failing hnop hgen hinit s⟩))

/-- Settles O22: the step runs the word, and each of the four outcomes leaves the fields it does not write. -/
theorem statusFieldsAfterAnyCommand : Obligations.StatusFieldsAfterAnyCommand := by
  refine ⟨⟨rfl, rfl, rfl, rfl⟩, fun s w rest hidle hin => ?_⟩
  rw [show step s = runCommand w (s.setInputs rest) from step_of_idle s _ rest hidle hin]
  obtain ⟨rfl, hrun⟩ | ⟨rfl, r, z, hrun⟩ | ⟨rfl, r, hrun⟩ | ⟨⟨hnop, hgen, hinit⟩, hrun⟩ :=
    runCommand_outcomes w (s.setInputs rest)
  · exact ⟨_, hrun, by simp [hidle]⟩
  · exact ⟨_, hrun, by simp [hidle]⟩
  · exact ⟨_, hrun, by simp [hidle]⟩
  · exact ⟨_, hrun, by simp [hidle, hnop, hgen, hinit]⟩

end Sys2Proof.Machine

/-! PROOFS. The statements of 20_memory.md: the KEY and FRAME pins, when they are read, and how KEY packs a key's bytes. -/

namespace Sys2Proof.Machine

/-! The pins during a command. -/

/-- Settles O14: an idle engine takes the port action, which writes the two pins. -/
theorem drivingPortsChangesOnlyThePins : Obligations.DrivingPortsChangesOnlyThePins := by
  intro s k f rest hidle hin
  calc step s = takeInput (.drivePorts k f) (s.setInputs rest) := step_of_idle s _ rest hidle hin
    _ = .next ((s.setInputs rest).setPorts k f) := rfl

theorem leafCycle_setPorts (l : Lops) (k : BitVec 64) (f : BitVec 32) (s : State) :
    (s.setPorts k f).leafCycle l = (s.leafCycle l).setPorts k f := rfl

theorem driven_setPorts (k : BitVec 64) (f : BitVec 32) (s : State) : driven (s.setPorts k f) = driven s := rfl

theorem completeAccepted_setPorts (w : BitVec 8) (k : BitVec 64) (f : BitVec 32) (s : State) :
    completeAccepted w (s.setPorts k f) = (completeAccepted w s).setPorts k f := by
  obtain hdec | hdec | hdec | hdec := decodeCmd8_cases w <;> simp only [completeAccepted, hdec] <;> rfl

/-- A leaf cycle works from the values the sequencer sampled, so it commutes with a change on the pins. -/
theorem advance_setPorts (k : BitVec 64) (f : BitVec 32) (s : State) :
    advance (s.setPorts k f) = (advance s).setPorts k f := by
  simp only [advance, driven_setPorts, leafCycle_setPorts, State.setPorts_seq]
  cases s.seq with
  | idle => rfl
  | accepted w key frame => simp only [completeAccepted_setPorts]; split <;> rfl
  | load i key frame => rfl
  | warmup c => dsimp only; split <;> rfl

theorem cycle_of_idle {p : Pins} {s : State} (hrst : p.rst = false) (hvalid : p.cmdValid = true) (hidle : s.seq = .idle) :
    cycle p s = accept p.cmd s := by
  simp [cycle, hrst, hvalid, State.cmdReady, s.busy_eq_false_iff.2 hidle]

theorem cycle_of_busy {p : Pins} {s : State} (hrst : p.rst = false) (hbusy : s.busy = true) : cycle p s = advance s := by
  simp [cycle, hrst, State.cmdReady, hbusy]

/-- Settles O47: acceptance stores both pins in the sequencer, and neither a later cycle nor NOP or GEN reads them again. -/
theorem portsAreSampledAtAcceptance : Obligations.PortsAreSampledAtAcceptance := by
  intro s k f
  refine ⟨fun p hrst hvalid hidle => ?_, fun p hrst hbusy => ?_, ⟨_, exec_nop s, rfl⟩, ⟨_, exec_gen s, rfl⟩⟩
  · rw [cycle_of_idle hrst hvalid hidle]; rfl
  · have hbusy' : (s.setPorts k f).busy = true := hbusy
    calc cycle p (s.setPorts k f) = advance (s.setPorts k f) := cycle_of_busy hrst hbusy'
      _ = (advance s).setPorts k f := advance_setPorts k f s
      _ = (cycle p s).setPorts k f := by rw [cycle_of_busy hrst hbusy]

/-! The KEY port's packing. -/

/-- Bit `j` of byte `b` lies at `8b + j`, for every byte the port has room for. -/
theorem packKey_getLsbD (key : List (BitVec 8)) {b j : Nat} (hb : b < 8) (hj : j < 8) :
    (packKey key).getLsbD (8 * b + j) = (key.getD b 0#8).getLsbD j := by
  induction key generalizing b with
  | nil => simp [packKey]
  | cons byte bytes ih =>
    rw [packKey, BitVec.getLsbD_or, BitVec.getLsbD_shiftLeft, BitVec.getLsbD_setWidth]
    cases b with
    | zero => simp [hj, show j < 64 by omega]
    | succ b =>
      have hbeyond : byte.getLsbD (8 * (b + 1) + j) = false := BitVec.getLsbD_of_ge _ _ (by omega)
      have hshift : 8 * (b + 1) + j - 8 = 8 * b + j := by omega
      rw [hbeyond, hshift, ih (by omega)]
      simp [show 8 * (b + 1) + j < 64 by omega, show ¬ 8 * (b + 1) + j < 8 by omega]

/-- Settles O56: the packing by bytes, and key bit `k` is KEY[k]. -/
theorem keyBytesLieInAscendingOrder : Obligations.KeyBytesLieInAscendingOrder :=
  fun key _ _ _ hb hj => ⟨packKey_getLsbD key hb hj, packKey_getLsbD key hb hj⟩

end Sys2Proof.Machine

/-! PROOFS. The statements of 30_encoding.md: the two decoders and the encoder, opcode-table words, the LOP4 words the sequencer
drives, and the assembler's INIT. -/

namespace Sys2Proof.Machine

/-! The command decoder, on the fields as naturals. -/

theorem cmdOp_toNat (w : BitVec 8) : (cmdOp w).toNat = opField w := by
  simp [cmdOp, opField]

theorem cmdKlen_toNat (w : BitVec 8) : (cmdKlen w).toNat = klenField w := by
  simp [cmdKlen, klenField, Nat.shiftRight_eq_div_pow]

theorem cmdRsv_eq_true_iff (w : BitVec 8) : cmdRsv w = true ↔ rsvField w = 1 := by
  have hw := w.isLt
  simp only [cmdRsv, rsvField, BitVec.getLsbD, Nat.testBit_eq_decide_div_mod_eq, decide_eq_true_iff]
  omega

/-- R63's checks, each on the field's number. -/
theorem decodeCmd8_eq (w : BitVec 8) : decodeCmd8 w =
    if 3 ≤ opField w then .error .illegalCommand
    else if rsvField w = 1 then .error .illegalCommand
    else if opField w = 0 then (if klenField w ≠ 0 then .error .illegalCommand else .ok .nop)
    else if opField w = 2 then (if klenField w ≠ 0 then .error .illegalCommand else .ok .gen)
    else .ok (.init (klenField w)) := by
  have hzero : cmdOp w = 0 ↔ opField w = 0 := by rw [← cmdOp_toNat, ← BitVec.toNat_inj]; rfl
  have htwo : cmdOp w = 2 ↔ opField w = 2 := by rw [← cmdOp_toNat, ← BitVec.toNat_inj]; rfl
  have hklen : cmdKlen w = 0 ↔ klenField w = 0 := by rw [← cmdKlen_toNat, ← BitVec.toNat_inj]; rfl
  simp only [decodeCmd8, cmdOp_toNat, cmdRsv_eq_true_iff, hzero, htwo, ne_eq, hklen, cmdKlen_toNat]

theorem decodeCmd8_of_init_fields {w : BitVec 8} (hop : opField w = 1) (hrsv : rsvField w = 0) :
    decodeCmd8 w = .ok (.init (klenField w)) := by
  simp [decodeCmd8_eq, hop, hrsv]

/-! The word of INIT. -/

theorem encode_init (klen : Nat) : encode (.init klen) = .cmd8 (BitVec.ofNat 8 ((klen <<< 3) ||| 0x01)) := by
  have hshift : BitVec.ofNat 8 klen <<< 3 = BitVec.ofNat 8 (klen <<< 3) := by
    apply BitVec.eq_of_toNat_eq
    simp [Nat.shiftLeft_eq]
  rw [encode, hshift, BitVec.ofNat_or]

/-- The fields OP = 1 and KLEN of an INIT word, put together as a number. -/
theorem initWord_toNat {klen : Nat} (h : klen ≤ 15) :
    (BitVec.ofNat 8 ((klen <<< 3) ||| 0x01)).toNat = 8 * klen + 1 := by
  rw [← Nat.shiftLeft_add_eq_or_of_lt (by decide), Nat.shiftLeft_eq, BitVec.toNat_ofNat]
  omega

theorem decode_encode_init {klen : Nat} (h : klen ≤ 15) : decode (encode (.init klen)) = .ok (.init klen) := by
  have hnat := initWord_toNat h
  rw [encode_init]
  generalize BitVec.ofNat 8 ((klen <<< 3) ||| 0x01) = w at hnat ⊢
  have hop : opField w = 1 := by rw [opField]; omega
  have hrsv : rsvField w = 0 := by rw [rsvField]; omega
  have hklen : klenField w = klen := by rw [klenField]; omega
  rw [decode, decodeCmd8_of_init_fields hop hrsv, hklen]

/-- A word with INIT's OP and bit 7 clear is the word of INIT with its own KLEN. -/
theorem encode_init_klenField {w : BitVec 8} (hop : opField w = 1) (hrsv : rsvField w = 0) :
    klenField w ≤ 15 ∧ encode (.init (klenField w)) = .cmd8 w := by
  have hle : klenField w ≤ 15 := by rw [klenField]; omega
  refine ⟨hle, ?_⟩
  rw [encode_init]
  congr 1
  apply BitVec.eq_of_toNat_eq
  rw [initWord_toNat hle]
  unfold opField at hop
  unfold rsvField at hrsv
  unfold klenField
  omega

/-! Decoder and encoder. -/

theorem decode_encode (i : Instr) (h : i.wf = true) : decode (encode i) = .ok i := by
  cases i with
  | init klen => exact decode_encode_init (of_decide_eq_true h)
  | feed d => cases d <;> rfl
  | step f => cases f <;> rfl
  | nop => rfl
  | gen => rfl
  | hold => rfl
  | clear => rfl
  | shift => rfl

/-- Settles O5: INIT's word carries KLEN in its field, and every other operand is one bit. -/
theorem decodeOfEncodeIsTheInstruction : Obligations.DecodeOfEncodeIsTheInstruction := decode_encode

theorem encode_of_decodeCmd8 {w : BitVec 8} {i : Instr} (h : decodeCmd8 w = .ok i) :
    i.wf = true ∧ encode i = .cmd8 w := by
  obtain hdec | hdec | hdec | hdec := decodeCmd8_cases w <;> cases hdec.symm.trans h
  · exact ⟨rfl, congrArg Word.cmd8 ((decodeCmd8_eq_nop_iff w).1 h).symm⟩
  · exact ⟨rfl, congrArg Word.cmd8 ((decodeCmd8_eq_gen_iff w).1 h).symm⟩
  · obtain ⟨hop, hrsv⟩ := (decodeCmd8_eq_init_iff w).1 h
    obtain ⟨hle, henc⟩ := encode_init_klenField hop hrsv
    rw [cmdKlen_toNat]
    exact ⟨decide_eq_true hle, henc⟩

theorem decodeLop4_of_not_legal : ∀ w : BitVec 4, w ∉ legalLopWords → decodeLop4 w = .error .reservedLop := by decide

/-- A LOP4 word that decodes is one of the seven of R66, each the word of its own operation. -/
theorem encode_of_decodeLop4 {w : BitVec 4} {i : Instr} (h : decodeLop4 w = .ok i) :
    i.wf = true ∧ encode i = .lop4 w := by
  have hlegal : w ∈ legalLopWords := by
    by_contra hnot
    cases (decodeLop4_of_not_legal w hnot).symm.trans h
  simp only [legalLopWords, List.mem_cons, List.not_mem_nil, or_false] at hlegal
  obtain rfl | rfl | rfl | rfl | rfl | rfl | rfl := hlegal <;> cases h <;> exact ⟨rfl, rfl⟩

/-- Settles O6: at the command port NOP and GEN have one word each and INIT's fields are all of its word; at a leaf's input only
the seven legal words decode. -/
theorem encodeOfDecodeIsTheWord : Obligations.EncodeOfDecodeIsTheWord := by
  intro w i h
  cases w with
  | cmd8 w => exact encode_of_decodeCmd8 h
  | lop4 w => exact encode_of_decodeLop4 h

/-- Settles O3: the fields are the numbers of R61, and the counts and INIT's own check are over the 256 words. -/
theorem commandDecoderFollowsItsChecks : Obligations.CommandDecoderFollowsItsChecks :=
  ⟨decodeCmd8_eq, rfl, rfl, rfl, rfl, startsInit_iff⟩

/-- Settles O4: R66's rows, and no other word decodes. -/
theorem leafWordDecoderFollowsTheMap : Obligations.LeafWordDecoderFollowsTheMap :=
  ⟨rfl, rfl, rfl, rfl, rfl, rfl, rfl, decodeLop4_of_not_legal⟩

/-- Settles O7: each written word is the word of its instruction. -/
theorem writtenWordsDecode : Obligations.WrittenWordsDecode :=
  ⟨decode_encode .nop rfl, decode_encode (.init 8) rfl, decode_encode .gen rfl, decode_encode (.feed true) rfl,
    decode_encode (.step false) rfl, decode_encode .shift rfl⟩

/-! Opcode-table words. -/

/-- A word that decodes at its port is read from the table, with its own number of bits, as itself. -/
theorem tableWord_of_decode {w : Word} {i : Instr} (h : decode w = .ok i) : tableWord w.width w.toNat = w := by
  cases w with
  | cmd8 w =>
    have hdec : decodeCmd8 w = .ok i := h
    simp [tableWord, Word.width, Word.toNat, hdec]
  | lop4 w => simp [tableWord, Word.width, Word.toNat]

theorem decodeTableWord_of_decode {w : Word} {i : Instr} (h : decode w = .ok i) :
    decodeTableWord w.width w.toNat = some i := by
  simp [decodeTableWord, tableWord_of_decode h, h]

theorem runCommand_of_decode {w : BitVec 8} {i : Instr} (h : decodeCmd8 w = .ok i) (s : State) :
    runCommand w s = exec i s := by
  simp [runCommand, h]

/-- A presented word is the next action of an idle engine; a LOP4 word goes to the leaf that is selected already. -/
theorem step_presentWord {w : Word} {i : Instr} (h : decode w = .ok i) (s : State) :
    step (presentWord w s) = exec i (s.setSeq .idle) := by
  cases w with
  | cmd8 w =>
    calc step (presentWord (.cmd8 w) s) = runCommand w (s.setSeq .idle) := step_of_idle _ (.command w) s.inputs rfl rfl
      _ = exec i (s.setSeq .idle) := runCommand_of_decode h _
  | lop4 w => exact stepRunsTheDecodedLeafWord (presentWord (.lop4 w) s) s.leafSel w s.inputs i rfl rfl h

/-- Settles O9: the word of a well-formed instruction decodes to it, so the table reads it so and the next step runs it. -/
theorem tableWordIsTheNextInstruction : Obligations.TableWordIsTheNextInstruction := by
  intro s i hwf
  have hdec := decode_encode i hwf
  refine ⟨decodeTableWord_of_decode hdec, ?_⟩
  rw [State.withFetchWord, tableWord_of_decode hdec]
  exact step_presentWord hdec s

/-! The LOP4 words driven into the leaves. -/

theorem Lop.word_not_reserved (op : Lop) : op.word ∉ reservedLopWords := by
  cases op with
  | feed d => revert d; decide
  | step f => revert f; decide
  | hold => decide
  | clear => decide
  | shift => decide

theorem Lops.forall_mem_words {l : Lops} {P : BitVec 4 → Prop} :
    (∀ w ∈ l.words, P w) ↔ P l.l1.word ∧ P l.l2.word ∧ P l.l3.word := by
  simp [Lops.words]

theorem selectLop_word (mode : MinorityMode) (maj c : Bool) :
    (selectLop mode maj c).word = 0x3#4 ∨ (selectLop mode maj c).word = 0x0#4 ∨
      (selectLop mode maj c).word = minorityWord mode := by
  cases maj with
  | true => exact .inl rfl
  | false =>
    cases c with
    | true => exact .inr (.inl rfl)
    | false => cases mode <;> exact .inr (.inr rfl)

/-- R103: what the arbiter can drive in a majority cycle. -/
theorem arbiter_words (c : Config) (r : Regs) :
    ∀ w ∈ (arbiter c r).words, w = 0x3#4 ∨ w = 0x0#4 ∨ w = minorityWord c.minority :=
  Lops.forall_mem_words.2 ⟨selectLop_word _ _ _, selectLop_word _ _ _, selectLop_word _ _ _⟩

theorem driven_of_idle {s : State} (h : s.seq = .idle) : driven s = Lops.all .hold := by
  simp [driven, h]

theorem driven_of_init {s : State} {k : BitVec 64} {f : BitVec 32} (h : s.seq = .accepted 0x41#8 k f) :
    driven s = Lops.all .clear := by
  rw [driven, h]; rfl

theorem driven_of_gen {s : State} {k : BitVec 64} {f : BitVec 32} (h : s.seq = .accepted 0x02#8 k f) :
    driven s = arbiter s.cfg s.regs := by
  rw [driven, h]; rfl

theorem driven_of_load {s : State} {i : Fin 86} {k : BitVec 64} {f : BitVec 32} (h : s.seq = .load i k f) :
    driven s = Lops.all (.feed (loadBit k f i)) := by
  simp [driven, h]

theorem driven_of_warmup {s : State} {k : Fin 100} (h : s.seq = .warmup k) : driven s = arbiter s.cfg s.regs := by
  simp [driven, h]

/-- Settles O48: each state of the sequencer drives its own operations, and no operation's word is reserved. -/
theorem sequencerDrivesTheRuleWords : Obligations.SequencerDrivesTheRuleWords := by
  intro s
  refine ⟨fun hidle => ?_, fun k f hinit => ?_, fun i k f hload => ?_, fun hmaj => ?_, ?_⟩
  · rw [driven_of_idle hidle]; rfl
  · rw [driven_of_init hinit]; rfl
  · rw [driven_of_load hload]
    exact ⟨rfl, rfl, rfl⟩
  · have harbiter : driven s = arbiter s.cfg s.regs := by
      obtain ⟨k, hwarm⟩ | ⟨k, f, hgen⟩ := hmaj
      · exact driven_of_warmup hwarm
      · exact driven_of_gen hgen
    rw [harbiter]
    exact arbiter_words s.cfg s.regs
  · exact Lops.forall_mem_words.2 ⟨Lop.word_not_reserved _, Lop.word_not_reserved _, Lop.word_not_reserved _⟩

/-! The assembler's INIT. -/

theorem asmCmd_init (k : Nat) : asmCmd (.init k) =
    if k ≤ 15 then some (BitVec.ofNat 8 ((k <<< 3) ||| 0x01)) else none := by
  simp only [asmCmd, Instr.wf, decide_eq_true_iff, encode_init]

/-- Settles O59: the operand is refused exactly when KLEN's field cannot hold it. -/
theorem assemblerAcceptsInitUpToFifteen : Obligations.AssemblerAcceptsInitUpToFifteen := by
  intro k
  rw [asmCmd_init]
  exact ⟨fun hle => if_pos hle, fun hlt => if_neg (Nat.not_le.2 hlt)⟩

end Sys2Proof.Machine

/-! PROOFS. The statements of 40_lfsr.md: the five operations of a leaf on naturals and by their bits, the leaf's outputs, reserved
words, runs of FEED and of SHIFT, the inverse of STEP, and zero registers. -/

namespace Sys2Proof.Machine

/-! Reserved words. -/

theorem exec_ne_fault (i : Instr) (s : State) (e : Fault) : exec i s ≠ .fault e := by
  obtain ⟨r, rd, kv, err, k, hexec, -⟩ := exec_cases i s
  simp [hexec]

theorem decodeLop4_eq_error_iff : ∀ w : BitVec 4, decodeLop4 w = .error .reservedLop ↔ w ∈ reservedLopWords := by decide

theorem decodeLop4_ne_illegalCommand : ∀ w : BitVec 4, decodeLop4 w ≠ .error .illegalCommand := by decide

/-- R89: a leaf word faults exactly where it has no instruction. -/
theorem runLeafWord_fault_iff (id : LeafId) (w : BitVec 4) (s : State) :
    runLeafWord id w s = .fault .reservedLop ↔ w ∈ reservedLopWords := by
  rw [← decodeLop4_eq_error_iff]
  cases hdec : decodeLop4 w with
  | ok i => simp [runLeafWord_of_decode hdec, exec_ne_fault]
  | error e =>
    cases e with
    | illegalCommand => exact absurd hdec (decodeLop4_ne_illegalCommand w)
    | reservedLop => simp [runLeafWord, hdec]

/-- Settles O12: the step runs the leaf word, which faults where it does not decode, and no operation's word is reserved. -/
theorem reservedLeafWordFaults : Obligations.ReservedLeafWordFaults := by
  refine ⟨fun s id w rest hidle hin => ?_, fun s => ?_⟩
  · rw [show step s = runLeafWord id w (s.setInputs rest) from step_of_idle s _ rest hidle hin]
    exact runLeafWord_fault_iff id w _
  · exact ⟨Lop.word_not_reserved _, Lop.word_not_reserved _, Lop.word_not_reserved _⟩

/-! One bit of a register as a natural. -/

section Bits

variable {w : Nat} (v tap : BitVec w)

theorem getLsbD_eq_decide (j : Nat) : v.getLsbD j = decide (v.toNat / 2 ^ j % 2 = 1) :=
  Nat.testBit_eq_decide_div_mod_eq

theorem getLsbD_zero_eq_decide : v.getLsbD 0 = decide (v.toNat % 2 = 1) := by
  rw [getLsbD_eq_decide, Nat.pow_zero, Nat.div_one]

/-- R83: what lies at bit `W-1` and above is that bit alone. -/
theorem outBit_eq_decide (hw : 1 ≤ w) : outBit v = decide (v.toNat / 2 ^ (w - 1) = 1) := by
  have hlt : v.toNat / 2 ^ (w - 1) < 2 := by
    rw [Nat.div_lt_iff_lt_mul (Nat.two_pow_pos _), ← Nat.pow_succ', Nat.succ_eq_add_one, Nat.sub_add_cancel hw]
    exact v.isLt
  rw [outBit, getLsbD_eq_decide, Nat.mod_eq_of_lt hlt]

/-! The operations of a leaf on naturals. -/

theorem leafFeed_toNat (d : Bool) : (leafFeed d v).toNat = ((v.toNat ^^^ d.toNat) <<< 1) % 2 ^ w := by
  cases w with
  | zero => simp [Nat.mod_one, BitVec.eq_nil (leafFeed d v)]
  | succ w =>
    have hd : d.toNat % 2 ^ (w + 1) = d.toNat :=
      Nat.mod_eq_of_lt (d.toNat_lt.trans_le (Nat.le_self_pow (by omega) 2))
    rw [leafFeed, BitVec.toNat_shiftLeft, BitVec.toNat_xor, BitVec.toNat_setWidth, BitVec.toNat_ofBool, hd]

theorem leafShift_toNat : (leafShift v).toNat = v.toNat >>> 1 := BitVec.toNat_ushiftRight ..

/-- R87's pseudocode; a register with bit 0 set has a bit to feed back into. -/
theorem leafStep_toNat (f : Bool) : (leafStep tap f v).toNat = stepNat w tap.toNat v.toNat := by
  rw [leafStep, stepNat, getLsbD_zero_eq_decide]
  by_cases hbit : v.toNat % 2 = 1
  · have hw : 1 ≤ w := by
      by_contra hzero
      obtain rfl : w = 0 := by omega
      simp [BitVec.eq_nil v] at hbit
    have htop : (1#w <<< (w - 1)).toNat = 1 <<< (w - 1) := by
      rw [← BitVec.twoPow_eq, BitVec.toNat_twoPow_of_lt (by omega), Nat.one_shiftLeft]
    simp only [hbit, decide_true, if_true, BitVec.toNat_or, BitVec.toNat_ushiftRight, BitVec.toNat_xor, htop]
  · simp [hbit]

/-! The operations of a leaf by their bits. -/

/-- Every bit of STEP's result but the top one: the bit above it, with the tap where bit 0 is fed back. -/
theorem leafStep_getLsbD_of_lt (f : Bool) {j : Nat} (hj : j + 1 < w) :
    (leafStep tap f v).getLsbD j = xor (v.getLsbD (j + 1)) (v.getLsbD 0 && tap.getLsbD (j + 1)) := by
  cases hbit : v.getLsbD 0 with
  | false => simp [leafStep_of_bit0_clear v tap f hbit, leafShift_getLsbD]
  | true =>
    rw [leafStep_getLsbD_of_bit0_set v tap f hbit j (by omega)]
    simp [show j ≠ w - 1 by omega]

theorem leafStep_getLsbD_top (f : Bool) (hw : 1 ≤ w) : (leafStep tap f v).getLsbD (w - 1) = v.getLsbD 0 := by
  cases hbit : v.getLsbD 0 with
  | false => simp [leafStep_of_bit0_clear v tap f hbit, leafShift_getLsbD, Nat.sub_add_cancel hw]
  | true => simp [leafStep_getLsbD_of_bit0_set v tap f hbit (w - 1) (by omega)]

/-- R87: the bit fed back is the new top bit, which `out_bit` shows. -/
theorem outBit_leafStep (f : Bool) (hw : 1 ≤ w) : outBit (leafStep tap f v) = decide (v.toNat % 2 = 1) := by
  rw [outBit, leafStep_getLsbD_top v tap f hw, getLsbD_zero_eq_decide]

theorem stepInverse_getLsbD_zero (hw : 1 ≤ w) : (stepInverse tap v).getLsbD 0 = v.getLsbD (w - 1) := by
  cases htop : v.getLsbD (w - 1) with
  | false => simp [stepInverse, htop]
  | true => simp [stepInverse, htop, show 0 < w from hw]

theorem stepInverse_getLsbD_succ {j : Nat} (hj : j + 1 < w) :
    (stepInverse tap v).getLsbD (j + 1) = xor (v.getLsbD j) (v.getLsbD (w - 1) && tap.getLsbD (j + 1)) := by
  have hj' : j < w := by omega
  cases htop : v.getLsbD (w - 1) with
  | false => simp [stepInverse, htop, hj, BitVec.getLsbD_eq_getElem hj']
  | true => simp [stepInverse, htop, hj, BitVec.getLsbD_eq_getElem hj']

theorem stepInverse_leafStep (f : Bool) (hw : 1 ≤ w) : stepInverse tap (leafStep tap f v) = v := by
  refine BitVec.eq_of_getLsbD_eq fun j hj => ?_
  cases j with
  | zero => rw [stepInverse_getLsbD_zero _ _ hw, leafStep_getLsbD_top _ _ _ hw]
  | succ j =>
    rw [stepInverse_getLsbD_succ _ _ hj, leafStep_getLsbD_top _ _ _ hw, leafStep_getLsbD_of_lt _ _ _ hj,
      Bool.xor_assoc, Bool.xor_self, Bool.xor_false]

theorem leafStep_stepInverse (f : Bool) (hw : 1 ≤ w) : leafStep tap f (stepInverse tap v) = v := by
  refine BitVec.eq_of_getLsbD_eq fun j hj => ?_
  by_cases hlt : j + 1 < w
  · rw [leafStep_getLsbD_of_lt _ _ _ hlt, stepInverse_getLsbD_zero _ _ hw, stepInverse_getLsbD_succ _ _ hlt,
      Bool.xor_assoc, Bool.xor_self, Bool.xor_false]
  · obtain rfl : j = w - 1 := by omega
    rw [leafStep_getLsbD_top _ _ _ hw, stepInverse_getLsbD_zero _ _ hw]

/-! Runs of one operation. -/

theorem loop_leafShift_getLsbD (n j : Nat) : (loop (fun _ u => leafShift u) n v).getLsbD j = v.getLsbD (j + n) := by
  induction n generalizing j with
  | zero => rfl
  | succ n ih => rw [loop_succ, leafShift_getLsbD, ih, Nat.add_right_comm, Nat.add_assoc]

theorem feedMany_append_singleton (ds : List Bool) (d : Bool) : feedMany (ds ++ [d]) v = leafFeed d (feedMany ds v) := by
  induction ds generalizing v with
  | nil => rfl
  | cons e ds ih => exact ih (leafFeed e v)

end Bits

/-- R90: a leaf fed from 0 holds the fed bits, the last lowest, above a bit 0 of 0. -/
theorem feedMany_zero_getLsbD {w : Nat} (ds : List Bool) {j : Nat} (hj : j < w) :
    (feedMany ds (0#w)).getLsbD j = (false :: ds.reverse).getD j false := by
  induction ds using List.reverseRecOn generalizing j with
  | nil => cases j <;> simp [feedMany]
  | append_singleton ds d ih =>
    rw [feedMany_append_singleton, leafFeed_getLsbD _ _ _ hj, List.reverse_concat]
    match j with
    | 0 => rfl
    | 1 => simp [ih (show 0 < w by omega)]
    | j + 2 => simp [ih (show j + 1 < w by omega)]

/-- Settles O36: bit `j >= 1` is element `j - 1` of the reversed list. -/
theorem feedsHaveAClosedForm : Obligations.FeedsHaveAClosedForm := by
  intro w ds j hj
  rw [feedMany_zero_getLsbD ds hj]
  cases j with
  | zero => rfl
  | succ j =>
    rw [List.getD_cons_succ]
    split_ifs with hle
    · have hlt : j < ds.reverse.length := by rw [List.length_reverse]; omega
      rw [List.getD_eq_getElem _ _ hlt, List.getElem_reverse]
      congr 1
      omega
    · have hge : ds.reverse.length ≤ j := by rw [List.length_reverse]; omega
      exact List.getD_eq_default _ _ hge

/-- Settles O37: each of the two maps gives back the other's bits. -/
theorem stepIsABijection : Obligations.StepIsABijection :=
  fun _ tap f v hw => ⟨stepInverse_leafStep v tap f hw, leafStep_stepInverse v tap f hw, leafStep_getLsbD_top v tap f hw⟩

/-- Settles O38: bit `j` after a shift is bit `j + 1` before it, so bit 0 is lost, and after W shifts every bit is. -/
theorem shiftsLoseBitsDownToZero : Obligations.ShiftsLoseBitsDownToZero := by
  intro w v
  constructor
  · refine BitVec.eq_of_getLsbD_eq fun j _ => ?_
    simp [leafShift_getLsbD]
  · refine BitVec.eq_of_getLsbD_eq fun j _ => ?_
    rw [loop_leafShift_getLsbD, BitVec.getLsbD_of_ge _ _ (by omega), BitVec.getLsbD_zero]

/-! A leaf cycle on the three registers as naturals. -/

/-- The value an operation leaves in a leaf, as R84 to R88 give it on naturals. -/
def Lop.valueNat (width tap : Nat) : Lop → Nat → Nat
  | .hold, v => v
  | .clear, _ => 0
  | .feed d, v => ((v ^^^ d.toNat) <<< 1) % 2 ^ width
  | .step _, v => stepNat width tap v
  | .shift, v => v >>> 1

/-- The operation driven into leaf Ri. -/
def Lops.opOf (l : Lops) : LeafId → Lop
  | .r1 => l.l1
  | .r2 => l.l2
  | .r3 => l.l3

theorem leafApply_toNat {w : Nat} (p : LeafConfig w) (op : Lop) (v : BitVec w) :
    (leafApply p op v).toNat = op.valueNat w p.tap.toNat v.toNat := by
  cases op with
  | hold => rfl
  | clear => exact BitVec.toNat_zero
  | feed d => exact leafFeed_toNat v d
  | step f => exact leafStep_toNat v p.tap f
  | shift => exact leafShift_toNat v

theorem applyLops_val (c : Config) (l : Lops) (r : Regs) (i : LeafId) :
    (applyLops c l r).val i = (l.opOf i).valueNat i.width (tapVal c i) (r.val i) := by
  cases i <;> exact leafApply_toNat _ _ _

/-- R87: a leaf that steps puts out its old bit 0. -/
theorem applyLops_outBitOf_of_step {l : Lops} {i : LeafId} {f : Bool} (h : l.opOf i = .step f) (c : Config) (r : Regs) :
    (applyLops c l r).outBitOf i = decide (r.val i % 2 = 1) := by
  have hleaf {w : Nat} (p : LeafConfig w) (v : BitVec w) (hw : 1 ≤ w) :
      outBit (leafApply p (l.opOf i) v) = decide (v.toNat % 2 = 1) := by
    rw [h]
    exact outBit_leafStep v p.tap f hw
  cases i <;> exact hleaf _ _ (by decide)

@[simp] theorem Lops.only_opOf (id : LeafId) (op : Lop) : (Lops.only id op).opOf id = op := by cases id <;> rfl

@[simp] theorem Lops.only_hold (id : LeafId) : Lops.only id .hold = Lops.all .hold := by cases id <;> rfl

theorem applyLops_only_val_self (c : Config) (id : LeafId) (op : Lop) (r : Regs) :
    (applyLops c (Lops.only id op) r).val id = op.valueNat id.width (tapVal c id) (r.val id) := by
  rw [applyLops_val, Lops.only_opOf]

/-! The leaf-level instructions. -/

/-- The selected leaf takes the operation's value, and nothing else changes. -/
theorem exec_writes_selected_leaf {i : Instr} {op : Lop} {s : State} (h : exec i s = .next (s.applyToLeaf op)) :
    ∃ r : Regs, exec i s = .next { s with regs := r } ∧
      r.val s.leafSel = op.valueNat s.leafSel.width (tapVal s.cfg s.leafSel) (s.regs.val s.leafSel) ∧
      ∀ j, j ≠ s.leafSel → r.val j = s.regs.val j :=
  ⟨_, h, applyLops_only_val_self s.cfg s.leafSel op s.regs, fun j => applyLops_only_val s.cfg s.leafSel j op s.regs⟩

/-- Settles O31: CLEAR's value is 0. -/
theorem clearZeroesTheLeaf : Obligations.ClearZeroesTheLeaf :=
  ⟨rfl, fun s => exec_writes_selected_leaf (exec_clear s)⟩

/-- Settles O32: FEED's value is the XOR with the bit, shifted and truncated to the leaf's width. -/
theorem feedShiftsTheBitIn : Obligations.FeedShiftsTheBitIn :=
  fun d => ⟨by cases d <;> rfl, fun s => exec_writes_selected_leaf (exec_feed d s)⟩

/-- Settles O33: STEP's value is R87's pseudocode for either `f`, and its top bit is the bit fed back. -/
theorem stepFeedsBackOnBitZero : Obligations.StepFeedsBackOnBitZero :=
  fun f => ⟨by cases f <;> rfl, fun s => ⟨_, exec_step f s, applyLops_only_val_self s.cfg s.leafSel (.step f) s.regs,
    applyLops_outBitOf_of_step (Lops.only_opOf s.leafSel (.step f)) s.cfg s.regs,
    fun j => applyLops_only_val s.cfg s.leafSel j (.step f) s.regs⟩⟩

/-- Settles O34: SHIFT's value is the old one shifted right, whatever its bit 0. -/
theorem shiftIsAPlainRightShift : Obligations.ShiftIsAPlainRightShift :=
  ⟨rfl, fun s => exec_writes_selected_leaf (exec_shift s)⟩

/-- Settles O30: HOLD in the selected leaf is HOLD in all three. -/
theorem holdChangesNothing : Obligations.HoldChangesNothing := by
  refine ⟨rfl, fun s => ?_⟩
  rw [exec_hold, State.applyToLeaf, Lops.only_hold, State.leafCycle_all_hold]

/-! The outputs of a leaf. -/

theorem clkBit_eq_decide {w : Nat} (p : LeafConfig w) (v : BitVec w) :
    clkBit p v = decide (v.toNat / 2 ^ p.clk.val % 2 = 1) := getLsbD_eq_decide v p.clk

/-- Settles O35: `clk_bit` is the bit at CLK, and `out_bit` the one at W-1, above which a register has none. -/
theorem clockAndOutputBitsAreRead : Obligations.ClockAndOutputBitsAreRead := by
  intro s i
  cases i with
  | r1 => exact ⟨clkBit_eq_decide _ _, outBit_eq_decide _ (by decide)⟩
  | r2 => exact ⟨clkBit_eq_decide _ _, outBit_eq_decide _ (by decide)⟩
  | r3 => exact ⟨clkBit_eq_decide _ _, outBit_eq_decide _ (by decide)⟩

/-! Zero registers. -/

/-- R91: FEED 1 is the one operation that takes a leaf out of zero. -/
theorem leafApply_zero {w : Nat} (p : LeafConfig w) {op : Lop} (h : op ≠ .feed true) : leafApply p op (0#w) = 0#w := by
  cases op with
  | hold => rfl
  | clear => rfl
  | feed d =>
    cases d with
    | false => simp [leafApply, leafFeed]
    | true => exact absurd rfl h
  | step f => simp [leafApply, leafStep]
  | shift => simp [leafApply, leafShift]

theorem selectLop_ne_feed (mode : MinorityMode) (maj c d : Bool) : selectLop mode maj c ≠ .feed d := by
  cases maj with
  | true => simp
  | false =>
    cases c with
    | true => simp [selectLop]
    | false => cases mode <;> simp [selectLop, minorityLop]

theorem applyLops_zero (c : Config) {l : Lops} (h : ∀ i, l.opOf i ≠ .feed true) :
    applyLops c l { r1 := 0, r2 := 0, r3 := 0 } = { r1 := 0, r2 := 0, r3 := 0 } :=
  (Regs.mk.injEq ..).mpr ⟨leafApply_zero _ (h .r1), leafApply_zero _ (h .r2), leafApply_zero _ (h .r3)⟩

/-- Settles O29: the arbiter selects no FEED, in either mode. -/
theorem zeroRegistersAreAFixedPoint : Obligations.ZeroRegistersAreAFixedPoint := by
  intro c
  refine applyLops_zero c fun i => ?_
  cases i <;> exact selectLop_ne_feed _ _ _ _

end Sys2Proof.Machine

/-! PROOFS. The statements of 41_arbiter.md: the majority vote, the operations it selects, and what a majority cycle leaves in
the registers and on their outputs. -/

namespace Sys2Proof.Machine

/-! The vote. -/

theorem majority_iff (c1 c2 c3 : Bool) : majority c1 c2 c3 = true ↔ 2 ≤ majorityCount c1 c2 c3 := decide_eq_true_iff

theorem majority_eq_false_iff (c1 c2 c3 : Bool) : majority c1 c2 c3 = false ↔ majorityCount c1 c2 c3 < 2 := by
  rw [← Bool.not_eq_true, majority_iff, Nat.not_le]

theorem majority_eq_sum_of_products : ∀ c1 c2 c3 : Bool,
    majority c1 c2 c3 = ((c1 && c2) || (c1 && c3) || (c2 && c3)) := by decide

theorem majorityCount_le_three (c1 c2 c3 : Bool) : majorityCount c1 c2 c3 ≤ 3 :=
  Nat.add_le_add (Nat.add_le_add c1.toNat_le c2.toNat_le) c3.toNat_le

theorem majorityCount_eq_count : ∀ c1 c2 c3 : Bool, majorityCount c1 c2 c3 = [c1, c2, c3].count true := by decide

/-! What the vote selects. -/

theorem selectLop_of_minority (mode : MinorityMode) (c : Bool) :
    selectLop mode false c = if c then .hold else minorityLop mode := rfl

@[simp] theorem minorityLop_word (mode : MinorityMode) : (minorityLop mode).word = minorityWord mode := by
  cases mode <;> rfl

theorem minorityLop_ne_hold (mode : MinorityMode) : minorityLop mode ≠ .hold := by
  cases mode <;> decide

theorem selectLop_word_eq (mode : MinorityMode) (maj c : Bool) :
    (selectLop mode maj c).word = if maj then 0x3#4 else if c then 0x0#4 else minorityWord mode := by
  cases maj with
  | true => rfl
  | false =>
    cases c with
    | true => rfl
    | false => exact minorityLop_word mode

/-- R105: the words driven, one for each clock bit. -/
theorem arbiterOf_words (mode : MinorityMode) (c1 c2 c3 : Bool) : (arbiterOf mode c1 c2 c3).words =
    [c1, c2, c3].map fun c => if majority c1 c2 c3 then 0x3#4 else if c then 0x0#4 else minorityWord mode := by
  simp only [Lops.words, arbiterOf, selectLop_word_eq, List.map_cons, List.map_nil]

/-- R103: a leaf holds where its clock bit is 1 and there is no majority. -/
theorem selectLop_eq_hold_iff (mode : MinorityMode) (maj c : Bool) :
    selectLop mode maj c = .hold ↔ maj = false ∧ c = true := by
  cases maj with
  | true => simp
  | false =>
    cases c with
    | true => simp [selectLop_of_minority]
    | false => simp [selectLop_of_minority, minorityLop_ne_hold]

theorem arbiterOf_held_of_majority (mode : MinorityMode) {c1 c2 c3 : Bool} (h : 2 ≤ majorityCount c1 c2 c3) :
    (arbiterOf mode c1 c2 c3).held = [false, false, false] := by
  simp [Lops.held, arbiterOf, (majority_iff c1 c2 c3).2 h]

theorem arbiterOf_held_of_minority (mode : MinorityMode) {c1 c2 c3 : Bool} (h : majorityCount c1 c2 c3 < 2) :
    (arbiterOf mode c1 c2 c3).held = [c1, c2, c3] := by
  simp [Lops.held, arbiterOf, selectLop_eq_hold_iff, (majority_eq_false_iff c1 c2 c3).2 h]

theorem eq_false_of_majorityCount_eq_zero : ∀ c1 c2 c3 : Bool,
    majorityCount c1 c2 c3 = 0 → [c1, c2, c3] = [false, false, false] := by decide

/-- Settles O24: R101's sum, and its sum of products by the eight cases. -/
theorem majorityIsTheSumOfProducts : Obligations.MajorityIsTheSumOfProducts :=
  fun c1 c2 c3 => ⟨rfl, majorityCount_le_three c1 c2 c3, majority_iff c1 c2 c3, majority_eq_sum_of_products c1 c2 c3⟩

/-- Settles O25: each row is the words of R103's selection, evaluated at its clock bits. -/
theorem arbiterSelectionTable : Obligations.ArbiterSelectionTable := by
  intro mode
  simp only [arbiterRow, arbiterOf_words]
  exact ⟨rfl, rfl, rfl, rfl, rfl, rfl, rfl, rfl⟩

/-- Settles O26: with a majority no leaf holds; else those whose clock bit is 1 do, and they are `m` many. -/
theorem atLeastTwoRegistersMove : Obligations.AtLeastTwoRegistersMove := by
  intro mode c1 c2 c3
  refine ⟨?_, ?_, fun hone => arbiterOf_held_of_minority mode (by omega)⟩
  · rcases Nat.lt_or_ge (majorityCount c1 c2 c3) 2 with hmin | hmaj
    · rw [arbiterOf_held_of_minority mode hmin, ← majorityCount_eq_count]
      omega
    · rw [arbiterOf_held_of_majority mode hmaj]
      decide
  · rintro (hmaj | hzero)
    · exact arbiterOf_held_of_majority mode hmaj
    · rw [arbiterOf_held_of_minority mode (by omega), eq_false_of_majorityCount_eq_zero c1 c2 c3 hzero]

/-! The arbiter of an engine: what it drives into each leaf. -/

section Engine

variable (s : State) (i : LeafId)

theorem clockNat_eq : clockNat s.cfg s.regs i = (s.clkBitOf i).toNat := by
  cases i <;> exact (Nat.toNat_testBit _ _).symm

theorem countNat_eq :
    countNat s.cfg s.regs = majorityCount (s.clkBitOf .r1) (s.clkBitOf .r2) (s.clkBitOf .r3) := by
  simp only [countNat, clockNat_eq, majorityCount]

theorem arbiter_opOf : (arbiter s.cfg s.regs).opOf i =
    selectLop s.cfg.minority (majority (s.clkBitOf .r1) (s.clkBitOf .r2) (s.clkBitOf .r3)) (s.clkBitOf i) := by
  cases i <;> rfl

variable {s}

theorem arbiter_opOf_of_majority (h : 2 ≤ majorityCount (s.clkBitOf .r1) (s.clkBitOf .r2) (s.clkBitOf .r3)) :
    (arbiter s.cfg s.regs).opOf i = .step false := by
  rw [arbiter_opOf, (majority_iff ..).2 h, selectLop_of_majority]

theorem arbiter_opOf_of_minority (h : majorityCount (s.clkBitOf .r1) (s.clkBitOf .r2) (s.clkBitOf .r3) < 2) :
    (arbiter s.cfg s.regs).opOf i = if s.clkBitOf i then .hold else minorityLop s.cfg.minority := by
  rw [arbiter_opOf, (majority_eq_false_iff ..).2 h, selectLop_of_minority]

end Engine

/-! A majority cycle on the registers. -/

theorem majCycle_val (c : Config) (r : Regs) (i : LeafId) : (majCycle c r).val i =
    ((arbiter c r).opOf i).valueNat i.width (tapVal c i) (r.val i) := applyLops_val c (arbiter c r) r i

/-- R103, R104 for the registers and the configuration of an engine. -/
theorem majCycleLeaves_majCycle (s : State) : MajCycleLeaves s.cfg s.regs (majCycle s.cfg s.regs) := by
  intro i
  rw [majCycle_val, countNat_eq, clockNat_eq]
  rcases Nat.lt_or_ge (majorityCount (s.clkBitOf .r1) (s.clkBitOf .r2) (s.clkBitOf .r3)) 2 with hmin | hmaj
  · rw [arbiter_opOf_of_minority i hmin, if_neg (Nat.not_le.2 hmin)]
    cases s.clkBitOf i with
    | true => rfl
    | false => cases s.cfg.minority <;> rfl
  · rw [arbiter_opOf_of_majority i hmaj, if_pos hmaj]
    rfl

/-- Settles O27: any configuration and registers are an engine's, and an idle engine takes the action as `majStep`. -/
theorem majorityCycleMatchesThePseudocode : Obligations.MajorityCycleMatchesThePseudocode :=
  ⟨fun c r => majCycleLeaves_majCycle ((State.resetWith c).setRegs r),
    fun s rest hidle hin => step_of_idle s .majCycle rest hidle hin⟩

/-! The output bits. -/

/-- R88: a plain shift leaves 0 at the top. -/
theorem outBit_leafShift {w : Nat} (v : BitVec w) : outBit (leafShift v) = false := by
  rw [outBit, leafShift_getLsbD]
  exact BitVec.getLsbD_of_ge v _ (by omega)

section Outputs

variable {l : Lops} {i : LeafId} (c : Config) (r : Regs)

theorem applyLops_outBitOf_of_hold (h : l.opOf i = .hold) : (applyLops c l r).outBitOf i = r.outBitOf i := by
  have hleaf {w : Nat} (p : LeafConfig w) (v : BitVec w) : outBit (leafApply p (l.opOf i) v) = outBit v := by
    rw [h]; rfl
  cases i <;> exact hleaf _ _

theorem applyLops_outBitOf_of_shift (h : l.opOf i = .shift) : (applyLops c l r).outBitOf i = false := by
  have hleaf {w : Nat} (p : LeafConfig w) (v : BitVec w) : outBit (leafApply p (l.opOf i) v) = false := by
    rw [h]; exact outBit_leafShift v
  cases i <;> exact hleaf _ _

end Outputs

/-- Settles O28: a leaf that steps puts out its old bit 0, one that holds its old top bit, and one that shifts 0. -/
theorem outputBitsAfterMajorityCycle : Obligations.OutputBitsAfterMajorityCycle := by
  intro s i
  refine ⟨fun hmaj => applyLops_outBitOf_of_step (arbiter_opOf_of_majority i hmaj) _ _, fun hmin hplain => ?_⟩
  have hop := arbiter_opOf_of_minority i hmin
  rw [hplain] at hop
  cases hclk : s.clkBitOf i with
  | true => exact applyLops_outBitOf_of_hold s.cfg s.regs (by rw [hop, hclk]; rfl)
  | false => exact applyLops_outBitOf_of_shift s.cfg s.regs (by rw [hop, hclk]; rfl)

end Sys2Proof.Machine

/-! PROOFS. The statements of 42_engine.md: the commands NOP, INIT and GEN, the registers INIT loads from FRAME alone, the
keystream of the GENs after it, and the host's init and pack32. -/

namespace Sys2Proof.Machine

/-! A command word on an idle engine. -/

/-- Settles O8: an idle engine takes its oldest action, and a command word that decodes is run. -/
theorem stepRunsTheDecodedCommand : Obligations.StepRunsTheDecodedCommand := by
  intro s w rest i hidle hin hdec
  calc step s = runCommand w (s.setInputs rest) := step_of_idle s _ rest hidle hin
    _ = exec i (s.setInputs rest) := runCommand_of_decode hdec _

/-- Settles O16: NOP is one write of ERR. -/
theorem nopWritesErrOnly : Obligations.NopWritesErrOnly := ⟨rfl, exec_nop⟩

/-- A word the host issues to an idle engine is run at once. -/
theorem issue_of_decode {w : BitVec 8} {i : Instr} {s : State} (hdec : decodeCmd8 w = .ok i) (hidle : s.seq = .idle) :
    issue w s = exec i s :=
  stepRunsTheDecodedCommand (s.setInputs (.command w :: s.inputs)) w s.inputs i hidle rfl hdec

theorem klenOk_iff (klen : Nat) : klenOk klen = true ↔ klen = 8 := beq_iff_eq

/-! FEEDs into all three leaves together. -/

theorem feedMany_append {w : Nat} (ds es : List Bool) (v : BitVec w) :
    feedMany (ds ++ es) v = feedMany es (feedMany ds v) := by
  induction ds generalizing v with
  | nil => rfl
  | cons d ds ih => exact ih (leafFeed d v)

/-- The registers after the same bits are fed to every leaf (R125, R126). -/
def Regs.feedBits (ds : List Bool) (r : Regs) : Regs :=
  { r1 := feedMany ds r.r1, r2 := feedMany ds r.r2, r3 := feedMany ds r.r3 }

theorem Regs.feedBits_append (ds es : List Bool) (r : Regs) : r.feedBits (ds ++ es) = (r.feedBits ds).feedBits es := by
  simp only [Regs.feedBits, feedMany_append]

/-- A loop that feeds bit `k` in iteration `k` feeds the list of these bits. -/
theorem loop_feed_eq_feedBits (c : Config) (bit : Nat → Bool) (n : Nat) (r : Regs) :
    loop (fun k r => applyLops c (Lops.all (.feed (bit k))) r) n r = r.feedBits ((List.range n).map bit) := by
  induction n with
  | zero => rfl
  | succ n ih => rw [loop_succ, ih, List.range_succ, List.map_append, Regs.feedBits_append]; rfl

/-! INIT's load phases (R124 to R126). -/

/-- The key's bits in the order they are fed. -/
def keyBitList (key : BitVec 64) : List Bool := (List.range keyBits).map (keyBit key)

/-- The frame's bits in the order they are fed. -/
def frameBitList (frame : BitVec 32) : List Bool := (List.range frameBits).map (frameBit frame)

/-- Cleared registers. -/
def Regs.zero : Regs := { r1 := 0, r2 := 0, r3 := 0 }

theorem phaseClear_eq (s : State) : phaseClear s = s.setRegs Regs.zero := rfl

theorem loadPhases_eq (key : BitVec 64) (frame : BitVec 32) (s : State) :
    phaseFrame frame (phaseKey key (phaseClear s)) =
      s.setRegs (Regs.zero.feedBits (keyBitList key ++ frameBitList frame)) := by
  simp only [phaseClear_eq, phaseKey_eq, phaseFrame_eq, loop_feed_eq_feedBits, State.setRegs_regs, State.setRegs_cfg,
    State.setRegs_setRegs, Regs.feedBits_append, keyBitList, frameBitList]

/-- Settles O19: the load phases feed the two lists of bits, one after the other, into cleared registers. -/
theorem initLoadPhasesFeedKeyThenFrame : Obligations.InitLoadPhasesFeedKeyThenFrame :=
  fun s => loadPhases_eq s.keyPort s.framePort s

/-! The loaded registers: a function of FRAME[21:0] (R129). -/

/-- The bits fed last are the frame's, from bit 21 down. -/
theorem getD_reverse_append_frameBitList (frame : BitVec 32) (ds : List Bool) {j : Nat} (hj : j < 22) :
    (ds ++ frameBitList frame).reverse.getD j false = frame.getLsbD (21 - j) := by
  have hlen : (frameBitList frame).reverse.length = 22 := by simp [frameBitList]
  rw [List.reverse_append, List.getD_append _ _ _ _ (by omega), List.getD_eq_getElem _ _ (by omega)]
  simp [frameBitList, frameBit]

/-- Whatever is fed before the frame is shifted out of a leaf of at most 23 bits. -/
theorem loadedFrom_feedMany {w : Nat} (hw : w ≤ 23) (ds : List Bool) (frame : BitVec 32) :
    LoadedFrom frame (feedMany (ds ++ frameBitList frame) 0#w) := by
  intro j hj
  rw [feedMany_zero_getLsbD _ hj]
  cases j with
  | zero => rfl
  | succ j =>
    rw [List.getD_cons_succ, getD_reverse_append_frameBitList frame ds (by omega), ← Nat.add_sub_add_right 21 1 j]
    simp

theorem LoadedFrom.unique {w : Nat} {frame : BitVec 32} {u v : BitVec w} (hu : LoadedFrom frame u) (hv : LoadedFrom frame v) :
    u = v :=
  BitVec.eq_of_getLsbD_eq fun j hj => (hu j hj).trans (hv j hj).symm

/-- The registers INIT's load phases leave, with no key. -/
def loadedRegs (frame : BitVec 32) : Regs := Regs.zero.feedBits (frameBitList frame)

/-- R129: no key bit reaches any register. -/
theorem feedBits_key_frame (key : BitVec 64) (frame : BitVec 32) :
    Regs.zero.feedBits (keyBitList key ++ frameBitList frame) = loadedRegs frame :=
  have hleaf {w : Nat} (hw : w ≤ 23) :
      feedMany (keyBitList key ++ frameBitList frame) 0#w = feedMany (frameBitList frame) 0#w :=
    (loadedFrom_feedMany hw _ frame).unique (loadedFrom_feedMany hw [] frame)
  (Regs.mk.injEq ..).mpr ⟨hleaf (by decide), hleaf (by decide), hleaf (by decide)⟩

/-- R136: the loaded registers depend on bits 21..0 of the frame. -/
theorem loadedRegs_congr {f g : BitVec 32} (h : ∀ k, k < 22 → f.getLsbD k = g.getLsbD k) : loadedRegs f = loadedRegs g := by
  have hbits : frameBitList f = frameBitList g := List.map_congr_left fun k hk => h k (List.mem_range.1 hk)
  rw [loadedRegs, loadedRegs, hbits]

/-! A successful INIT. -/

/-- The registers of a successful INIT: 100 majority cycles on the loaded ones (R127). -/
def initRegs (c : Config) (frame : BitVec 32) : Regs := loop (fun _ => majCycle c) warmupCycles (loadedRegs frame)

theorem initEffect_eq_initRegs (key : BitVec 64) (frame : BitVec 32) (s : State) :
    initEffect key frame s = (s.setRegs (initRegs s.cfg frame)).markInitDone := by
  rw [initEffect, loadPhases_eq, feedBits_key_frame, phaseWarmup_eq]; rfl

theorem exec_init_eight (s : State) :
    exec (.init 8) s = .next (s.setRegs (initRegs s.cfg s.framePort)).markInitDone := by
  rw [exec_init, if_pos ((klenOk_iff 8).2 rfl), initEffect_eq_initRegs]

theorem issue_init {s : State} (hidle : s.seq = .idle) :
    issue initWord s = .next (s.setRegs (initRegs s.cfg s.framePort)).markInitDone :=
  (issue_of_decode rfl hidle).trans (exec_init_eight s)

/-- Settles O18: the loaded registers have R129's closed form, and the rest of INIT is the warm-up and the status. -/
theorem initLoadsFrameAndWarmsUp : Obligations.InitLoadsFrameAndWarmsUp :=
  fun s => ⟨loadedRegs s.framePort, loadedFrom_feedMany (by decide) [] _, loadedFrom_feedMany (by decide) [] _,
    loadedFrom_feedMany (by decide) [] _, exec_init_eight s⟩

/-- Settles O20: frames that agree on bits 21..0 load the same registers, and INIT reads the port for nothing else. -/
theorem initIgnoresHighFrameBits : Obligations.InitIgnoresHighFrameBits := by
  intro s f g hagree
  have hregs : initRegs s.cfg f = initRegs s.cfg g := by rw [initRegs, loadedRegs_congr hagree, initRegs]
  refine ⟨(s.setRegs (initRegs s.cfg f)).markInitDone, exec_init_eight _, ?_⟩
  rw [hregs]
  exact exec_init_eight _

/-! GEN (R130). -/

theorem xor_decide_odd (a b : Nat) :
    xor (decide (a % 2 = 1)) (decide (b % 2 = 1)) = decide ((a + b) % 2 = 1) := by
  rw [Bool.eq_iff_iff]
  simp only [bne_iff_ne, ne_eq, decide_eq_decide, decide_eq_true_iff]
  omega

/-- The keystream bit is the parity of the three top bits. -/
theorem keystreamBit_eq_decide (r : Regs) : keystreamBit r =
    decide ((r.val .r1 / 2 ^ 18 + r.val .r2 / 2 ^ 21 + r.val .r3 / 2 ^ 22) % 2 = 1) := by
  simp only [keystreamBit, outBit, getLsbD_eq_decide, xor_decide_odd]
  rfl

/-- Settles O21: GEN latches the bit of the registers its majority cycle leaves. -/
theorem genClocksThenLatchesTheBit : Obligations.GenClocksThenLatchesTheBit := by
  refine ⟨rfl, fun s => ⟨majCycle s.cfg s.regs, majCycleLeaves_majCycle s, ?_⟩⟩
  rw [← keystreamBit_eq_decide]
  exact exec_gen s

@[simp] theorem genEffect_cfg (s : State) : (genEffect s).cfg = s.cfg := rfl
@[simp] theorem genEffect_seq (s : State) : (genEffect s).seq = s.seq := rfl

theorem issue_gen {s : State} (hidle : s.seq = .idle) : issue genWord s = .next (genEffect s) :=
  (issue_of_decode rfl hidle).trans (exec_gen s)

/-! Runs of GENs: the keystream and the state they leave (R131, R132). -/

/-- The first `n` keystream bits from registers `r`: one after each majority cycle. -/
def keystream (c : Config) (r : Regs) (n : Nat) : List Bool :=
  (List.range n).map fun k => keystreamBit (loop (fun _ => majCycle c) (k + 1) r)

@[simp] theorem keystream_length (c : Config) (r : Regs) (n : Nat) : (keystream c r n).length = n := by
  simp [keystream]

theorem keystream_succ (c : Config) (r : Regs) (n : Nat) :
    keystream c r (n + 1) = keystreamBit (majCycle c r) :: keystream c (majCycle c r) n := by
  rw [keystream, List.range_succ_eq_map, List.map_cons, List.map_map]
  simp only [keystream, Function.comp_def, Nat.succ_eq_add_one, loop_const_succ, loop_zero]

theorem keystream_add (c : Config) (r : Regs) (m n : Nat) :
    keystream c r (m + n) = keystream c r m ++ keystream c (loop (fun _ => majCycle c) m r) n := by
  simp only [keystream, List.range_add, List.map_append, List.map_map, Function.comp_def, loop_add]

/-- The state `n` GENs leave. -/
def afterGens (n : Nat) (s : State) : State := loop (fun _ => genEffect) n s

/-- R130 for the last of `n + 1` GENs: the registers after as many majority cycles, and their bit in KS. -/
theorem afterGens_succ (n : Nat) (s : State) : afterGens (n + 1) s =
    (s.setRegs (loop (fun _ => majCycle s.cfg) (n + 1) s.regs)).latchKs
      (keystreamBit (loop (fun _ => majCycle s.cfg) (n + 1) s.regs)) := by
  induction n with
  | zero => rfl
  | succ n ih => rw [afterGens, loop_succ, ← afterGens, ih]; rfl

theorem afterGens_regs (n : Nat) (s : State) : (afterGens n s).regs = loop (fun _ => majCycle s.cfg) n s.regs := by
  cases n with
  | zero => rfl
  | succ n => rw [afterGens_succ]; rfl

@[simp] theorem afterGens_cfg (n : Nat) (s : State) : (afterGens n s).cfg = s.cfg :=
  loop_frame State.cfg (fun _ => genEffect_cfg) n s

@[simp] theorem afterGens_seq (n : Nat) (s : State) : (afterGens n s).seq = s.seq :=
  loop_frame State.seq (fun _ => genEffect_seq) n s

theorem afterGens_add (m n : Nat) (s : State) : afterGens (m + n) s = afterGens n (afterGens m s) := loop_add _ m n s

/-- R132: the bits are a function of the configuration and the registers. -/
theorem generate_of_idle {s : State} (n : Nat) (hidle : s.seq = .idle) :
    generate n s = some (keystream s.cfg s.regs n, afterGens n s) := by
  induction n generalizing s with
  | zero => rfl
  | succ n ih =>
    have hrest : hostRun (List.replicate n genWord) (genEffect s) = _ := ih (s := genEffect s) hidle
    simp only [generate, List.replicate_succ, hostRun, issue_gen hidle, hrest, keystream_succ, afterGens, loop_const_succ]
    rfl

/-- Settles O49: the cycles of `m + n` GENs are those of `m` and then of `n`. -/
theorem generateIsContinuous : Obligations.GenerateIsContinuous := by
  intro s m n hidle
  refine ⟨_, _, _, _, generate_of_idle m hidle, generate_of_idle n (by simp [hidle]), ?_,
    keystream_length .., keystream_length .., rfl⟩
  rw [generate_of_idle _ hidle, keystream_add, afterGens_add, afterGens_regs, afterGens_cfg]

/-- An INIT reads no bit, and the GENs after it start from its registers. -/
theorem hostRun_init_gens {s : State} (n : Nat) (hidle : s.seq = .idle) :
    hostRun (0x41#8 :: List.replicate n 0x02#8) s = some (keystream s.cfg (initRegs s.cfg s.framePort) n,
      afterGens n (s.setRegs (initRegs s.cfg s.framePort)).markInitDone) := by
  have hgens := generate_of_idle (s := (s.setRegs (initRegs s.cfg s.framePort)).markInitDone) n hidle
  rw [generate] at hgens
  simp only [hostRun, issue_init hidle, hgens]
  rfl

theorem State.status_congr {s t : State} (hready : s.ready = t.ready) (hvalid : s.ksValid = t.ksValid)
    (herr : s.err = t.err) (hseq : s.seq = t.seq) : s.status = t.status := by
  rw [State.status, State.status, State.busy, State.busy, hready, hvalid, herr, hseq]

/-- Settles O51: both runs have the registers of the common configuration and frame bits, and INIT and GEN write the rest of
the host's view. -/
theorem keystreamDependsOnFrameAlone : Obligations.KeystreamDependsOnFrameAlone := by
  intro s s' n hidle hidle' hcfg hframe
  have hregs : initRegs s'.cfg s'.framePort = initRegs s.cfg s.framePort := by
    rw [initRegs, initRegs, hcfg, loadedRegs_congr hframe]
  have hrun' := hostRun_init_gens n hidle'
  rw [hregs, ← hcfg] at hrun'
  refine ⟨_, _, _, hostRun_init_gens n hidle, hrun', keystream_length .., ?_⟩
  cases n with
  | zero => exact ⟨rfl, State.status_congr rfl rfl rfl (hidle.trans hidle'.symm), by omega⟩
  | succ n =>
    simp only [afterGens_succ, State.markInitDone_cfg, State.markInitDone_regs, State.setRegs_cfg, State.setRegs_regs, ← hcfg]
    refine ⟨rfl, ?_, fun _ => Prod.ext ?_ rfl⟩ <;> exact State.status_congr rfl rfl rfl (hidle.trans hidle'.symm)

/-! Registers that a majority cycle leaves as they are. -/

theorem loop_of_fixed {α : Type} {g : α → α} {a : α} (h : g a = a) (n : Nat) : loop (fun _ => g) n a = a :=
  loop_keeps (· = a) (fun _ _ hb => by rw [hb, h]) n a rfl

/-- From a fixed point of the majority cycle every keystream bit is the same. -/
theorem keystream_of_fixed {c : Config} {r : Regs} (h : majCycle c r = r) (n : Nat) :
    keystream c r n = List.replicate n (keystreamBit r) := by
  simp only [keystream, loop_of_fixed h, List.map_const', List.length_range]

/-- From registers the majority cycle leaves, GENs leave them too and give their one bit. -/
theorem generate_of_fixed {s : State} (n : Nat) (hidle : s.seq = .idle) (h : majCycle s.cfg s.regs = s.regs) :
    generate n s = some (List.replicate n (keystreamBit s.regs), afterGens n s) ∧ (afterGens n s).regs = s.regs := by
  rw [generate_of_idle n hidle, keystream_of_fixed h, afterGens_regs]
  exact ⟨rfl, loop_of_fixed h n⟩

theorem majCycle_zero (c : Config) : majCycle c Regs.zero = Regs.zero := zeroRegistersAreAFixedPoint c

theorem initRegs_of_loadedRegs_zero {frame : BitVec 32} (h : loadedRegs frame = Regs.zero) (c : Config) :
    initRegs c frame = Regs.zero := by
  rw [initRegs, h]
  exact loop_of_fixed (majCycle_zero c) _

theorem loadedRegs_of_zero_frame {frame : BitVec 32} (h : frame.extractLsb' 0 22 = 0#22) :
    loadedRegs frame = Regs.zero := by
  have hbits : ∀ k, k < 22 → frame.getLsbD k = (0#32).getLsbD k := fun k hk => by
    have hbit := congrArg (fun v => v.getLsbD k) h
    simpa [hk] using hbit
  rw [loadedRegs_congr hbits]
  decide

/-- Settles O52: cleared registers fed zeros stay zero, and they are a fixed point of the majority cycle. -/
theorem zeroFrameGivesZeroKeystream : Obligations.ZeroFrameGivesZeroKeystream := by
  intro s n hidle hframe
  have hloaded := loadedRegs_of_zero_frame hframe
  have hinit := initRegs_of_loadedRegs_zero hloaded s.cfg
  have hrun := hostRun_init_gens n hidle
  rw [hinit, keystream_of_fixed (majCycle_zero s.cfg)] at hrun
  refine ⟨?_, _, _, exec_init_eight s, hinit, hrun, ?_⟩
  · rw [loadPhases_eq, feedBits_key_frame, hloaded]; rfl
  · rw [afterGens_regs]
    exact loop_of_fixed (majCycle_zero s.cfg) n

/-! The known-vector scenario of CFG-A (R138). -/

/-- The registers its warm-up ends at. -/
def knownScenarioRegs : Regs := { r1 := 0x190#19, r2 := 0#22, r3 := 0#23 }

theorem majCycle_knownScenario : majCycle (Config.cfgA .plain) knownScenarioRegs = knownScenarioRegs := by decide

theorem loadedRegs_knownScenario :
    loadedRegs 0x134#32 = { r1 := 0x64000#19, r2 := 0x164000#22, r3 := 0x164000#23 } := by decide

theorem warmup_reaches_knownScenario : loop (fun _ => majCycle (Config.cfgA .plain)) 21
    { r1 := 0x64000#19, r2 := 0x164000#22, r3 := 0x164000#23 } = knownScenarioRegs := by decide +kernel

/-- The warm-up reaches the degenerate registers in its 21st cycle, and the other 79 leave them. -/
theorem initRegs_knownScenario : initRegs (Config.cfgA .plain) 0x134#32 = knownScenarioRegs := by
  rw [initRegs, show warmupCycles = 21 + 79 from rfl, loop_add, loadedRegs_knownScenario, warmup_reaches_knownScenario]
  exact loop_of_fixed majCycle_knownScenario 79

theorem clkBitOf_knownScenario {s : State} (hcfg : s.cfg = Config.cfgA .plain) (hregs : s.regs = knownScenarioRegs) :
    s.clkBitOf .r1 = true ∧ s.clkBitOf .r2 = false ∧ s.clkBitOf .r3 = false := by
  simp only [State.clkBitOf, hcfg, hregs]
  decide

theorem keystreamBit_knownScenario : keystreamBit knownScenarioRegs = false := by decide

/-- Settles O53: the warm-up ends at a fixed point of the majority cycle whose three top bits are 0. -/
theorem knownScenarioIsDegenerate : Obligations.KnownScenarioIsDegenerate := by
  intro s n hidle hcfg hframe
  have hexec := exec_init_eight s
  rw [hcfg, hframe, initRegs_knownScenario] at hexec
  have hfixed : majCycle s.cfg knownScenarioRegs = knownScenarioRegs := by rw [hcfg, majCycle_knownScenario]
  obtain ⟨hgen, hregs⟩ := generate_of_fixed (s := (s.setRegs knownScenarioRegs).markInitDone) n hidle hfixed
  obtain ⟨hclk1, hclk2, hclk3⟩ := clkBitOf_knownScenario (s := (s.setRegs knownScenarioRegs).markInitDone) hcfg rfl
  rw [State.markInitDone_regs, State.setRegs_regs, keystreamBit_knownScenario] at hgen
  exact ⟨_, _, hexec, rfl, hclk1, hclk2, hclk3, hfixed, hgen, hregs⟩

/-! The host's init (R133). -/

theorem decodeCmd8_initWord {klen : Nat} (h : klen ≤ 15) :
    decodeCmd8 ((BitVec.ofNat 8 klen <<< 3) ||| 0x01#8) = .ok (.init klen) := decode_encode_init h

theorem hostInit_of_eight {key : List (BitVec 8)} {s : State} (frame : Nat) (hlen : key.length = 8) (hidle : s.seq = .idle) :
    ∃ t, hostInit key frame s = some (t, errOk) ∧
      exec (.init 8) (s.setPorts (packKey key) (BitVec.ofNat 32 frame)) = .next t := by
  refine ⟨_, ?_, exec_init_eight _⟩
  rw [hostInit, if_pos hlen, issue_init (s := s.setPorts (packKey key) (BitVec.ofNat 32 frame)) hidle]
  rfl

theorem hostInit_of_wrong_short {key : List (BitVec 8)} {s : State} (frame : Nat) (hne : key.length ≠ 8)
    (hle : key.length ≤ 15) (hidle : s.seq = .idle) :
    hostInit key frame s = some (s.setErr errInvalidArgument, errInvalidArgument) := by
  have hissue := issue_of_decode (decodeCmd8_initWord hle) hidle
  rw [exec_init, if_neg (mt (klenOk_iff _).1 hne)] at hissue
  rw [hostInit, if_neg hne, if_pos hle, hissue]
  rfl

theorem hostInit_of_long {key : List (BitVec 8)} (frame : Nat) (s : State) (h : 15 < key.length) :
    hostInit key frame s = some (s, errInvalidArgument) := by
  have hne : key.length ≠ keyBytes := by rw [keyBytes]; omega
  rw [hostInit, if_neg hne, if_neg (by omega)]

/-- Settles O55: the three ranges of the key's length, each with its command or with none. -/
theorem hostInitRejectsWrongKeyLengths : Obligations.HostInitRejectsWrongKeyLengths :=
  fun _ frame s hidle => ⟨fun hne hle => hostInit_of_wrong_short frame hne hle hidle, hostInit_of_long frame s,
    fun hlen => hostInit_of_eight frame hlen hidle⟩

/-! pack32 (R134). -/

theorem pack32Onto_append_singleton (bits : List Bool) (b : Bool) (o : BitVec 32) :
    pack32Onto (bits ++ [b]) o = (pack32Onto bits o <<< 1) ||| (BitVec.ofBool b).setWidth 32 := by
  induction bits generalizing o with
  | nil => rfl
  | cons d bits ih => exact ih _

theorem pack32_getLsbD (bits : List Bool) {j : Nat} (hj : j < 32) :
    (pack32 bits).getLsbD j = bits.reverse.getD j false := by
  induction bits using List.reverseRecOn generalizing j with
  | nil => simp [pack32, pack32Onto]
  | append_singleton bits b ih =>
    rw [pack32, pack32Onto_append_singleton, ← pack32, List.reverse_concat]
    cases j with
    | zero => simp
    | succ j =>
      rw [List.getD_cons_succ, ← ih (show j < 32 by omega)]
      simp [hj, show j < 32 by omega]

/-- Settles O57: each bit packed is bit 0 until the next one pushes it up, and past bit 31 out. -/
theorem pack32KeepsTheLastBits : Obligations.Pack32KeepsTheLastBits := fun bits _ hj => pack32_getLsbD bits hj

end Sys2Proof.Machine

/-! PROOFS. The statements of 60_exceptions.md: the two ways a command fails, what can stop the machine, the idle engine, the
keystream among NOPs and failing commands, and several engines side by side. -/

namespace Sys2Proof.Machine

/-! Failing commands. -/

/-- R152's words are those R63's checks turn away. -/
theorem decodeCmd8_of_illegalWord {w : BitVec 8} (h : illegalWord w) : decodeCmd8 w = .error .illegalCommand := by
  rw [decodeCmd8_eq]
  obtain hop | hrsv | ⟨hop | hop, hklen⟩ := h
  · rw [if_pos hop]
  · simp [hrsv]
  · simp [hop, hklen]
  · simp [hop, hklen]

theorem runCommand_of_illegalWord {w : BitVec 8} (h : illegalWord w) (s : State) :
    runCommand w s = .next (s.setErr errIllegalCommand) := by
  simp [runCommand, decodeCmd8_of_illegalWord h, raiseError_eq]

/-- Settles O11: an idle engine takes the word, and each of R152's causes is an error of the decoder. -/
theorem illegalCommandWritesErrOnly : Obligations.IllegalCommandWritesErrOnly := by
  intro s w rest hidle hin hill
  calc step s = runCommand w (s.setInputs rest) := step_of_idle s _ rest hidle hin
    _ = .next ((s.setInputs rest).setErr errIllegalCommand) := runCommand_of_illegalWord hill _

theorem exec_init_of_wrong_length {klen : Nat} (h : klen ≠ 8) (s : State) :
    exec (.init klen) s = .next (s.setErr errInvalidArgument) := by
  rw [exec_init, if_neg (mt (klenOk_iff klen).1 h)]

/-- Settles O17: INIT's own check turns the length away, and a word with INIT's fields decodes to INIT of its KLEN. -/
theorem initWithWrongLengthWritesErrOnly : Obligations.InitWithWrongLengthWritesErrOnly := by
  refine ⟨fun klen s hne => exec_init_of_wrong_length hne s, fun s w rest hidle hin hop hrsv hne => ?_⟩
  calc step s = exec (.init (klenField w)) (s.setInputs rest) :=
        stepRunsTheDecodedCommand s w rest _ hidle hin (decodeCmd8_of_init_fields hop hrsv)
    _ = .next ((s.setInputs rest).setErr errInvalidArgument) := exec_init_of_wrong_length hne _

/-! What can stop the machine: the waiting actions are taken from, and no operation puts one there. -/

theorem exec_answers_next (i : Instr) (s : State) : ∃ t, exec i s = .next t ∧ t.inputs = s.inputs := by
  obtain ⟨r, rd, kv, e, k, hexec, -⟩ := exec_cases i s
  exact ⟨_, hexec, rfl⟩

@[simp] theorem finish_inputs (s : State) : (finish s).inputs = s.inputs := by
  obtain ⟨r, rd, kv, e, k, hfinish, -⟩ := finish_cases s
  rw [hfinish]

theorem decodeLop4_of_legal {w : BitVec 4} (h : w ∈ legalLopWords) : ∃ i, decodeLop4 w = .ok i := by
  simp only [legalLopWords, List.mem_cons, List.not_mem_nil, or_false] at h
  obtain rfl | rfl | rfl | rfl | rfl | rfl | rfl := h <;> exact ⟨_, rfl⟩

/-- R164, R89: a safe action is taken without a fault and leaves the waiting ones. -/
theorem takeInput_of_safe {a : Input} (h : a.safe = true) (s : State) :
    ∃ t, takeInput a s = .next t ∧ t.inputs = s.inputs := by
  cases a with
  | command w =>
    obtain ⟨i, -, hrun⟩ | ⟨-, hrun⟩ := runCommand_cases w s
    · obtain ⟨t, hexec, hin⟩ := exec_answers_next i s
      exact ⟨t, hrun.trans hexec, hin⟩
    · exact ⟨_, hrun, rfl⟩
  | drivePorts key frame => exact ⟨_, rfl, rfl⟩
  | reset => exact ⟨_, rfl, rfl⟩
  | leaf id w =>
    obtain ⟨i, hdec⟩ := decodeLop4_of_legal (of_decide_eq_true h)
    obtain ⟨t, hexec, hin⟩ := exec_answers_next i (s.setLeafSel id)
    exact ⟨t, (runLeafWord_of_decode hdec id s).trans hexec, hin⟩
  | majCycle => exact ⟨_, rfl, rfl⟩

theorem inputsSafe_congr {s t : State} (h : t.inputs = s.inputs) : t.inputsSafe = s.inputsSafe := by
  rw [State.inputsSafe, h, State.inputsSafe]

/-- Settles O15: a step finishes the command in progress, or takes the oldest action, which is safe as the others are. -/
theorem safeActionsNeverStopTheMachine : Obligations.SafeActionsNeverStopTheMachine := by
  intro s hsafe
  have hfinish : (finish s).inputsSafe = true := (inputsSafe_congr (finish_inputs s)).trans hsafe
  obtain ⟨-, hstep⟩ | ⟨a, rest, -, -, -, hstep⟩ | ⟨a, rest, hin, -, hstep⟩ := step_cases s
  · exact ⟨_, hstep, hfinish⟩
  · exact ⟨_, hstep, hfinish⟩
  · rw [State.inputsSafe, hin, List.all_cons, Bool.and_eq_true] at hsafe
    obtain ⟨ha, hrest⟩ := hsafe
    obtain ⟨t, htake, hleft⟩ := takeInput_of_safe ha (s.setInputs rest)
    exact ⟨t, hstep.trans htake, (inputsSafe_congr hleft).trans hrest⟩

/-! The idle engine. -/

theorem step_of_no_inputs {s : State} (h : s.inputs = []) : step s = .next (finish s) := by
  simp [step, takeNext, h]

theorem cycle_of_no_command {p : Pins} (s : State) (hrst : p.rst = false) (hvalid : p.cmdValid = false) :
    cycle p s = advance s := by
  simp [cycle, hrst, hvalid]

/-- Settles O13: an idle engine has no cycle left to finish and drives HOLD, so its leaf cycle changes nothing. -/
theorem idleEngineHoldsEveryLeaf : Obligations.IdleEngineHoldsEveryLeaf := by
  intro s hidle
  refine ⟨fun hin => ?_, ?_, ?_, ?_, fun p hrst hvalid => ?_⟩
  · rw [step_of_no_inputs hin, finish_of_idle s hidle]
  · rw [driven_of_idle hidle]; rfl
  · rw [driven_of_idle hidle]; rfl
  · rw [driven_of_idle hidle]; rfl
  · rw [cycle_of_no_command s hrst hvalid, advance_of_idle s hidle]

/-! The keystream among NOPs and failing commands (R158). -/

theorem issue_of_idle (w : BitVec 8) {s : State} (hidle : s.seq = .idle) : issue w s = runCommand w s :=
  step_of_idle (s.setInputs (.command w :: s.inputs)) (.command w) s.inputs hidle rfl

/-- A command that is neither GEN nor a successful INIT writes ERR and nothing else. -/
theorem issue_of_neither_gen_nor_init {w : BitVec 8} (hgen : w ≠ genWord) (hinit : w ≠ initWord) {s : State}
    (hidle : s.seq = .idle) : ∃ e, issue w s = .next (s.setErr e) := by
  rw [issue_of_idle w hidle]
  obtain ⟨-, hrun⟩ | ⟨hw, -⟩ | ⟨hw, -⟩ | ⟨-, hrun⟩ := runCommand_outcomes w s
  · exact ⟨_, hrun⟩
  · exact absurd hw hgen
  · exact absurd hw hinit
  · exact ⟨_, hrun⟩

theorem hostRun_cons {w : BitVec 8} {ws : List (BitVec 8)} {s t u : State} {bits : List Bool}
    (hissue : issue w s = .next t) (hrun : hostRun ws t = some (bits, u)) :
    hostRun (w :: ws) s = some (if w = genWord then t.ks :: bits else bits, u) := by
  simp only [hostRun, hissue, hrun]

/-- Without a successful INIT the host reads the keystream of as many GENs as the list holds, and the registers are theirs. -/
theorem hostRun_of_no_init {ws : List (BitVec 8)} (hws : ∀ w ∈ ws, w ≠ initWord) {s : State} (hidle : s.seq = .idle) :
    ∃ t, hostRun ws s = some (keystream s.cfg s.regs (ws.count genWord), t) ∧
      t.regs = loop (fun _ => majCycle s.cfg) (ws.count genWord) s.regs := by
  induction ws generalizing s with
  | nil => exact ⟨s, rfl, rfl⟩
  | cons w ws ih =>
    obtain ⟨hw, htail⟩ := List.forall_mem_cons.1 hws
    by_cases hgen : w = genWord
    · subst hgen
      obtain ⟨t, hrun, hregs⟩ := ih htail (s := genEffect s) hidle
      rw [List.count_cons_self, keystream_succ, loop_const_succ]
      exact ⟨t, hostRun_cons (issue_gen hidle) hrun, hregs⟩
    · obtain ⟨e, hissue⟩ := issue_of_neither_gen_nor_init hgen hw hidle
      obtain ⟨t, hrun, hregs⟩ := ih htail (s := s.setErr e) hidle
      have hcons := hostRun_cons hissue hrun
      rw [if_neg hgen] at hcons
      rw [List.count_cons_of_ne hgen]
      exact ⟨t, hcons, hregs⟩

/-- Settles O50: both runs give the keystream of the same number of majority cycles. -/
theorem streamIgnoresNopsAndFailures : Obligations.StreamIgnoresNopsAndFailures := by
  intro s ws hidle hws
  obtain ⟨t, hrun, hregs⟩ := hostRun_of_no_init hws hidle
  exact ⟨_, t, _, hrun, generate_of_idle _ hidle, hregs.trans (afterGens_regs _ s).symm⟩

/-! Several engines (R161). -/

/-- What stepping one engine of several can do: that engine takes its own step, in its own place. -/
theorem stepInstance_eq_some {n : Nat} {engines engines' : List State} (h : stepInstance n engines = some engines') :
    ∃ s t, engines[n]? = some s ∧ step s = .next t ∧ engines' = engines.set n t := by
  unfold stepInstance at h
  split at h
  · next s hget =>
    split at h
    · next t hstep => cases h; exact ⟨s, t, hget, hstep, rfl⟩
    · cases h
    · cases h
  · cases h

/-- Settles O54: the new list is the old one with the stepped engine put back in its place. -/
theorem instancesShareNothing : Obligations.InstancesShareNothing := by
  intro engines engines' n h
  obtain ⟨s, t, hget, hstep, rfl⟩ := stepInstance_eq_some h
  obtain ⟨hlt, -⟩ := List.getElem?_eq_some_iff.1 hget
  exact ⟨List.length_set, fun m hm => List.getElem?_set_ne hm.symm, s, t, hget, hstep, List.getElem?_set_self hlt⟩

end Sys2Proof.Machine

/-! PROOFS. The statements of 70_reset_and_hazards.md: reset, the command handshake, how long INIT takes, and when what the host
reads changes. -/

namespace Sys2Proof.Machine

/-! Reset (R170, R171). -/

/-- Reset is taken at once, so no part of a command in progress is run. -/
theorem step_of_reset {s : State} {rest : List Input} (h : s.inputs = .reset :: rest) :
    step s = .next (resetEngine (s.setInputs rest)) := by
  simp [step, takeNext, h, takenWhileBusy, takeInput]

theorem cycle_of_reset {p : Pins} (h : p.rst = true) (s : State) : cycle p s = resetEngine s := if_pos h

/-- Settles O2: the action and the pin both leave `resetEngine` of the state, whose fields are R35's values. -/
theorem resetAbandonsWhateverExecutes : Obligations.ResetAbandonsWhateverExecutes := by
  refine fun s => ⟨fun rest hin => ⟨_, step_of_reset hin, rfl, rfl, rfl, rfl, rfl, rfl, rfl⟩, fun p hrst => ?_⟩
  rw [cycle_of_reset hrst]
  exact ⟨rfl, rfl, rfl, rfl, rfl, rfl, rfl⟩

/-! The handshake (R174). -/

@[simp] theorem accept_busy (w : BitVec 8) (s : State) : (accept w s).busy = true := rfl

/-- Settles O45: an idle engine's cycle with a valid word is `accept`; a busy one's is `advance`, which reads no pin. -/
theorem handshakeAcceptsOnlyWhenReady : Obligations.HandshakeAcceptsOnlyWhenReady := by
  refine fun s p q hp hq => ⟨rfl, fun hidle hvalid => ?_, fun hbusy => ?_⟩
  · rw [cycle_of_idle hp hvalid hidle]
    exact ⟨rfl, accept_busy p.cmd s⟩
  · rw [cycle_of_busy hp hbusy, cycle_of_busy hq hbusy]

/-! Cycles of a command in progress (R179). -/

theorem State.busy_iff_cyclesLeft_pos (s : State) : s.busy = true ↔ 0 < cyclesLeft s.seq := by
  rw [s.busy_iff, Nat.pos_iff_ne_zero, Ne, Ne, cyclesLeft_eq_zero_iff]

/-- Whatever the command port shows, each cycle is one less for the command to take, and what it will leave stays the same. -/
theorem runCycles_within_command {ps : List Pins} (hrst : ∀ p ∈ ps, p.rst = false) {s : State}
    (hle : ps.length ≤ cyclesLeft s.seq) :
    cyclesLeft (runCycles ps s).seq + ps.length = cyclesLeft s.seq ∧ finish (runCycles ps s) = finish s := by
  induction ps generalizing s with
  | nil => exact ⟨rfl, rfl⟩
  | cons p ps ih =>
    obtain ⟨hp, hps⟩ := List.forall_mem_cons.1 hrst
    rw [List.length_cons] at hle ⊢
    have hbusy : s.busy = true := s.busy_iff_cyclesLeft_pos.2 (by omega)
    have hseq : s.seq ≠ .idle := s.busy_iff.1 hbusy
    have hleft := cyclesLeft_advance s hseq
    rw [runCycles, cycle_of_busy hp hbusy, finish_advance s hseq]
    obtain ⟨hrest, hfinish⟩ := ih hps (s := advance s) (by omega)
    exact ⟨by omega, hfinish⟩

/-- A command's own number of cycles brings it to its completion. -/
theorem runCycles_eq_finish {ps : List Pins} (hrst : ∀ p ∈ ps, p.rst = false) {s : State}
    (hlen : ps.length = cyclesLeft s.seq) : runCycles ps s = finish s := by
  obtain ⟨hleft, hfinish⟩ := runCycles_within_command hrst hlen.le
  have hidle : (runCycles ps s).seq = .idle := (cyclesLeft_eq_zero_iff _).1 (by omega)
  rw [← hfinish, finish_of_idle _ hidle]

theorem runCycles_busy {ps : List Pins} (hrst : ∀ p ∈ ps, p.rst = false) {s : State}
    (hlt : ps.length < cyclesLeft s.seq) : (runCycles ps s).busy = true := by
  obtain ⟨hleft, -⟩ := runCycles_within_command hrst hlt.le
  exact (State.busy_iff_cyclesLeft_pos _).2 (by omega)

theorem cyclesLeft_accept_of_startsInit {w : BitVec 8} (h : startsInit w = true) (s : State) :
    cyclesLeft (accept w s).seq = 187 := if_pos h

/-- Settles O44: 0x41 starts INIT's phases, which need 187 cycles, and finishing them is the atomic INIT. -/
theorem initTakesOneHundredEightySevenLeafCycles : Obligations.InitTakesOneHundredEightySevenLeafCycles := by
  intro s ps hidle hlen hrst
  have hstart : startsInit 0x41#8 = true := (startsInit_iff _).2 rfl
  have hleft := cyclesLeft_accept_of_startsInit hstart s
  refine ⟨?_, fun k hk => ?_⟩
  · rw [runCycles_eq_finish hrst (hlen.trans hleft.symm), finish_accept_of_startsInit hstart hidle, exec_init,
      if_pos ((klenOk_iff 8).2 rfl)]
  · have hrst' : ∀ p ∈ ps.take k, p.rst = false := fun p hp => hrst p (List.mem_of_mem_take hp)
    exact runCycles_busy hrst' (by rw [List.length_take, hleft]; omega)

/-! What the host reads while a command runs (R175). -/

/-- A leaf cycle ends with an idle engine, or it moves the leaves and the sequencer alone. -/
theorem advance_idle_or_moves_on (s : State) :
    (advance s).seq = .idle ∨ ∃ q, advance s = (s.leafCycle (driven s)).setSeq q := by
  unfold advance
  cases hseq : s.seq with
  | idle => exact .inl hseq
  | accepted w key frame =>
    cases hstart : startsInit w with
    | true => exact .inr ⟨_, if_pos hstart⟩
    | false => exact .inl (by simp [hstart])
  | load i key frame => exact .inr ⟨_, rfl⟩
  | warmup k =>
    by_cases hk : k.val + 1 < 100
    · exact .inr ⟨_, dif_pos hk⟩
    · exact .inl (by simp [hk])

/-- Settles O46: an idle engine's cycle changes the sequencer at most, and a busy engine's changes those fields only where it
ends with an idle engine. -/
theorem busyCyclesShowThePreviousOutcome : Obligations.BusyCyclesShowThePreviousOutcome := by
  intro s p hrst h
  by_cases hidle : s.seq = .idle
  · cases hvalid : p.cmdValid with
    | true => rw [cycle_of_idle hrst hvalid hidle]; exact ⟨rfl, rfl, rfl, rfl⟩
    | false => rw [cycle_of_no_command s hrst hvalid, advance_of_idle s hidle]; exact ⟨rfl, rfl, rfl, rfl⟩
  · have hstill := h.resolve_right hidle
    rw [cycle_of_busy hrst (s.busy_iff.2 hidle)] at hstill ⊢
    obtain hdone | ⟨q, hmove⟩ := advance_idle_or_moves_on s
    · exact absurd hdone ((advance s).busy_iff.1 hstill)
    · rw [hmove]; exact ⟨rfl, rfl, rfl, rfl⟩

end Sys2Proof.Machine
